-- ==== Sys2Proof/Word.lean ====
section
/-! DEFINITION. The word types of the line: a byte, a station number. -/

namespace Sys2Proof

/-- One byte on the line (12, "In every layout, byte 0 is the first byte on the line"). -/
abbrev Byte := BitVec 8

/-- A station number: 0 for broadcast, 1 to 127 for a station (R15). -/
abbrev Station := Nat

end Sys2Proof
end

