-- ==== Sys2Proof/Syntax.lean ====
section
/-! DEFINITION. The commands of the part: one constructor of `Instr` for each row of spec/opcode_table.json, with the
types its operands are made of. What a command means stands in Sys2Proof/Machine alone. -/

namespace Sys2Proof

/-- The three external line ports (00, "The part in outline"). -/
inductive PortId
  | n
  | s
  | w
deriving DecidableEq, Repr, Inhabited

/-- The four classes of a frame, highest first (R9). -/
inductive Cls
  | safety
  | drive
  | signal
  | service
deriving DecidableEq, Repr, Inhabited

/-- The two class gates of the Relay (R53). -/
inductive Gate
  | signal
  | service
deriving DecidableEq, Repr, Inhabited

/-- The drive states a drive station reports (R13, 12.6). -/
inductive DriveState
  | braked
  | creeping
  | running
  | fault
deriving DecidableEq, Repr, Inhabited

/-- The positions a slide station reports (R13, 12.6). -/
inductive SlidePos
  | opened
  | closed
  | between
  | fault
deriving DecidableEq, Repr, Inhabited

/-- The positions a floor shutter station reports (R13, 12.6). -/
inductive ShutterPos
  | opened
  | atPause
  | lowered
  | between
  | fault
deriving DecidableEq, Repr, Inhabited

/-- What an accepted frame for the own number brings beside its payload: its port of arrival and its source. -/
structure From where
  port   : PortId
  source : Station
deriving DecidableEq, Repr, Inhabited

/-- What a Manage frame brings beside its order: port of arrival, source, class and reply-wanted flag (R12, R180). -/
structure Ctx where
  port        : PortId
  source      : Station
  cls         : Cls
  replyWanted : Bool
deriving DecidableEq, Repr, Inhabited

/-- Where a waiting frame stands (R52): the i-th occupied slot of a port, of the Agent Port, or the i-th place of an
output queue, counted from 0 in the order held. -/
inductive FramePlace
  | slot (port : PortId) (i : Nat)
  | agentSlot (i : Nat)
  | queue (port : PortId) (i : Nat)
deriving DecidableEq, Repr, Inhabited

/-- The commands of the part, one for each row of the opcode table. -/
inductive Instr
  -- power and cycle
  | powerUp (strap : Nat) (alarm : Bool)
  | cycleStart (alarm : Bool)
  | alarmAsserted
  | alarmReleased
  | endOfPeriodicMark
  | burstFrameSent (port : PortId)
  | frameReceived (port : PortId) (bytes : List Byte)
  | outputGrant (port : PortId)
  | agentPortSlotTaken
  | frameAged (place : FramePlace)
  | holdAgeExpired (i : Nat)
  | gateEffective (gate : Gate)
  | trainingTimeout (port : PortId)
  | portSilent (port : PortId)
  | overcurrent
  | cooldownExpired
  -- Manage frames
  | claim (c : Ctx)
  | release (c : Ctx)
  | force (c : Ctx)
  | read (c : Ctx) (object first : Nat)
  | load (c : Ctx) (table first : Nat) (data : List Byte)
  | commit (c : Ctx) (table : Nat)
  | beginService (c : Ctx)
  | setClock (c : Ctx) (second : Nat)
  | portEnable (c : Ctx) (port : Nat)
  | portDisable (c : Ctx) (port : Nat)
  | gateSet (c : Ctx) (cls : Nat)
  | gateClear (c : Ctx) (cls : Nat)
  | start (c : Ctx)
  | stop (c : Ctx)
  | clearTrip (c : Ctx)
  | openSlides (c : Ctx)
  | restore (c : Ctx)
  | clearFault (c : Ctx)
  | clearCounters (c : Ctx)
  | testPlay (c : Ctx) (post kind code repeats : Nat)
  | reset (c : Ctx)
  | resetFrame (f : From)
  | subscribe (c : Ctx) (conditions falling : Nat)
  | unsubscribe (c : Ctx)
  | unknownOrder (c : Ctx) (code : Nat) (args : List Byte)
  -- the chain
  | chainPosition (f : From) (position speed : Nat) (state : DriveState) (edge : Byte)
  | driveState (f : From) (state : DriveState)
  | landingEdgeTrip (f : From)
  | chainRecordStale
  | clearingTimerExpired
  | planCompleted
  | poll (f : From) (cycle : Nat)
  -- the order channels
  | channelGrant
  | retryRebuild (channel : Nat)
  | confirm (f : From) (toggle : Bool) (result : Nat)
  | replyWindowExpired (channel : Nat)
  -- slides and shutters
  | slidePosition (f : From) (pos : SlidePos)
  | slideTravelTimeout (plane : Nat)
  | slideStationLost (plane : Nat)
  | shutterPosition (f : From) (pos : ShutterPos)
  | shutterTravelTimeout (entry : Nat)
  | shutterStationLost (entry : Nat)
  | escapeHoldExpired (compartment : Nat)
  | dropNow (f : From) (mask : Byte)
  -- signal posts
  | postReady (f : From)
  | postDone (f : From) (completed : Nat)
  | postHalted (f : From) (completed : Nat)
  | presence (f : From)
  | playDeadlineExpired (post : Nat)
  | postStationLost (post : Nat)
  -- staff bell calls
  | call (f : From) (cls : Cls) (toggle : Bool) (code : Nat) (posts : BitVec 16) (rounds interval : Nat)
  | roundDue (id : Nat)
  | acknowledge (f : From) (form id : Nat)
  -- the store day
  | clockAdvance
  | fireZoneAlarm (f : From) (zone : Nat)
  | fireZoneClear (f : From) (zone : Nat)
  | streamTimerExpired
  | firePanelLost (station : Station)
deriving DecidableEq, Repr, Inhabited

end Sys2Proof
end

