-- ==== Sys2Proof/Decode.lean ====
section
/-! DEFINITION. The command that a word of the opcode table spells. No row of spec/opcode_table.json gives bits (every row's
fields are empty), so no word spells a command. The bytes of the line are decoded in Sys2Proof/Machine/Codec.lean. -/

namespace Sys2Proof

/-- The command spelt by a word of `nbits` bits: none, since no row of the table gives bits. -/
def decodeTableWord (_nbits _w : Nat) : Option Instr := none

end Sys2Proof
end

