-- ==== Sys2Proof/Config.lean ====
section
/-! DEFINITION. The free value: what the spec leaves without a value although the part goes on. It is a constant without
a body, so that no proof can see its value; a statement that holds, holds for every value (log 12). -/

namespace Sys2Proof.Config

/-- Whether a flag byte of a Report that is neither 0 nor 1 reads as set. 12 says "A flag is 1 when set and 0 when clear" and
no rule says what another byte is; 12.6 gives flags no code table. DESIGN CHOICE: a free value (log 12). -/
opaque oddFlag : Byte → Bool

end Sys2Proof.Config
end

