-- ==== Sys2Proof/Machine/State.lean ====
section
/-! DEFINITION. The state of the part: everything the spec says it holds, as plain data, with its value after reset, and the
outcome types of a step. INVENTORY.md lists each piece with its rule and its reset value. -/

namespace Sys2Proof.Machine

/-- The states of an external port (R17, 12.6). -/
inductive PortState
  | off
  | training
  | up
  | silent
  | faulted
deriving DecidableEq, Repr, Inhabited

/-- The store modes (R5, R168, 12.6). -/
inductive StoreMode
  | unloaded
  | trading
  | warning
  | lastCall
  | closed
  | night
  | evacuation
deriving DecidableEq, Repr, Inhabited

/-- The drive modes (R5, section 5.3, 12.6). -/
inductive DriveMode
  | halted
  | running
  | lastCall
  | stopping
  | parked
  | tripped
deriving DecidableEq, Repr, Inhabited

/-- A line frame (R7, 12.1). `spare` is bits 1 and 0 of header byte 2, carried as received (R189); `check` is the check word
as received or as computed when the frame was built (R8). -/
structure Frame where
  replyWanted : Bool
  dest        : Station
  toggle      : Bool
  source      : Station
  cls         : Cls
  kind        : Nat
  spare       : Nat
  payload     : List Byte
  check       : Nat
deriving DecidableEq, Repr, Inhabited

/-- Who built a frame (R51): a station on the line, the part itself with no interest in its fate (a Notice, a Manage Reply, a
Call Confirm), or a channel, with the number of the build. -/
inductive Builder
  | station
  | part
  | channel (c build : Nat)
deriving DecidableEq, Repr, Inhabited

/-- The inputs of the output arbiters in their cyclic order N, S, W, Agent, Hold (R46, R50). -/
inductive Input
  | port (q : PortId)
  | agent
  | hold
deriving DecidableEq, Repr, Inhabited

/-- An occupied input slot (section 2.7, R32): the frame, who built it, its target set, its age and its arrival cycle. -/
structure Slot where
  frame   : Frame
  builder : Builder
  target  : List PortId
  age     : Nat
  arrived : Nat
deriving DecidableEq, Repr, Inhabited

/-- A frame in an output queue (R49, R52), with the input it came in by (R54 counts only frames received on an external port). -/
structure Queued where
  frame   : Frame
  builder : Builder
  arrival : Input
  age     : Nat
deriving DecidableEq, Repr, Inhabited

/-- A frame built by an agent or channel that waits for an Agent Port slot (R28), longest waiting first in its list. -/
structure Waiting where
  frame   : Frame
  builder : Builder
deriving DecidableEq, Repr, Inhabited

/-- The eleven counters of a port (R30). -/
structure Counters where
  received   : Nat := 0
  overrun    : Nat := 0
  badCheck   : Nat := 0
  badForm    : Nat := 0
  unroutable : Nat := 0
  ruleDrop   : Nat := 0
  aged       : Nat := 0
  gated      : Nat := 0
  localRoute : Nat := 0
  holdFull   : Nat := 0
  flushed    : Nat := 0
deriving DecidableEq, Repr, Inhabited

/-- The names of the eleven counters (R30). -/
inductive Counter
  | received
  | overrun
  | badCheck
  | badForm
  | unroutable
  | ruleDrop
  | aged
  | gated
  | localRoute
  | holdFull
  | flushed
deriving DecidableEq, Repr, Inhabited

/-- An external port (chapters 2 and 3): its state and counts, its occupied slots in order of acceptance, its output queue
head first, the frame the burst is sending, how many more the burst may take (R4), its counters and its arbiter's pointer. -/
structure Port where
  state     : PortState := .training
  training  : Nat := 0
  silence   : Nat := 0
  slots     : List Slot := []
  queue     : List Queued := []
  sending   : Option Queued := none
  burstLeft : Nat := 0
  counters  : Counters := {}
  pointer   : Input := .port .n
deriving DecidableEq, Repr, Inhabited

/-- The Agent Port (R28): its occupied slots in order of acceptance, the frames waiting for one, its counters. -/
structure AgentPort where
  slots    : List Slot := []
  waiting  : List Waiting := []
  counters : Counters := {}
deriving DecidableEq, Repr, Inhabited

/-- A route of the Route Table (R36). -/
inductive Route
  | none
  | port (q : PortId)
  | flood
deriving DecidableEq, Repr, Inhabited

/-- The conditions of the Hold List (R45). -/
inductive HoldCondition
  | chainAtRest
  | notEvacuation
  | tradingHours
deriving DecidableEq, Repr, Inhabited

/-- An entry of the Hold List (R45). A broadcast is kept with the route Flood, which R45 resolves alike. -/
structure HoldEntry where
  frame     : Frame
  arrival   : PortId
  condition : HoldCondition
  route     : Route
  age       : Nat
  eligible  : Bool
  target    : List PortId
deriving DecidableEq, Repr, Inhabited

/-- The two class gates (R53, R54): management settings and effective indications. -/
structure Gates where
  signalSet        : Bool := false
  serviceSet       : Bool := false
  signalEffective  : Bool := false
  serviceEffective : Bool := false
deriving DecidableEq, Repr, Inhabited

/-- The records that can have orders (R57). -/
inductive RecordId
  | lamp
  | slide (plane : Nat)
  | shutter (entry : Nat)
  | post (k : Nat)
deriving DecidableEq, Repr, Inhabited

/-- The orders of R14 with their parameters. The slots of Play Pattern are the eight two-bit codes of 12.3, slot 1 in bits 15
and 14. -/
inductive Order
  | lampsOn
  | lampsOff
  | slideClose
  | slideOpen
  | shutterToPause
  | shutterFull
  | shutterRaise
  | playPattern (slots : BitVec 16) (divider repeats : Nat)
  | playPhrase (cue repeats : Nat)
  | haltPlay
deriving DecidableEq, Repr, Inhabited

/-- A pending order (R57). The list of pending orders stands in the order of placing. -/
structure PendingOrder where
  record : RecordId
  target : Station
  order  : Order
  cls    : Cls
  placed : Nat
deriving DecidableEq, Repr, Inhabited

/-- The states of a channel (section 4.4). -/
inductive ChannelState
  | idle
  | sending
  | awaiting
  | halting
deriving DecidableEq, Repr, Inhabited

/-- The results of an order (R70). -/
inductive OrderResult
  | done
  | refused
  | rejected
  | noReply
  | unroutable
  | halted
  | haltedAccepted
deriving DecidableEq, Repr, Inhabited

/-- Where the current build of a channel's order stands (R63, R64, R66): no build, a build of which nothing was sent yet, a
build of which a copy was sent. -/
inductive BuildStage
  | none
  | unsent
  | sent
deriving DecidableEq, Repr, Inhabited

/-- A channel record (section 4.4). `build` and `stage` are the model's: the number and the stage of the current build.
`deaf` marks an order whose result its owner discards on arrival (R116, R127, R138, R140). In a channel that has held no order
since power-up or a warm reset (R72) the fields of the order are filler and read as 0 (`Channel.bytes`; DESIGN CHOICE, log 39). -/
structure Channel where
  state       : ChannelState := .idle
  record      : RecordId := .lamp
  target      : Station := 0
  order       : Order := .lampsOn
  cls         : Cls := .safety
  toggle      : Bool := false
  triesLeft   : Nat := 0
  transmitted : Bool := false
  timer       : Nat := 0
  retryDue    : Bool := false
  result      : Option OrderResult := none
  build       : Nat := 0
  stage       : BuildStage := .none
  deaf        : Bool := false
deriving DecidableEq, Repr, Inhabited

/-- The freshness of the chain record (R75). -/
inductive Freshness
  | unknown
  | fresh
  | extrapolated
  | stale
deriving DecidableEq, Repr, Inhabited

/-- The chain record (R75). -/
structure ChainRecord where
  x          : Nat := 0
  v          : Nat := 0
  freshness  : Freshness := .unknown
  misses     : Nat := 0
  echo       : Option DriveState := none
  edge       : Bool := false
  lastReport : Nat := 0
deriving DecidableEq, Repr, Inhabited

/-- The stage of a permit or a plan (R85, R94). -/
inductive Stage
  | none
  | creep
  | run
deriving DecidableEq, Repr, Inhabited

/-- An adopted plan (R85). `moved` is whether a report with speed above 0 has been taken since its adoption (R86, step 3). -/
structure Plan where
  stage  : Stage
  target : Nat
  travel : Int
  moved  : Bool
deriving DecidableEq, Repr, Inhabited

/-- The staged permit (R94). -/
structure Permit where
  stage  : Stage := .none
  target : Option Nat := none
  mode   : DriveMode := .halted
deriving DecidableEq, Repr, Inhabited

/-- A Permit Poll waiting for its Answer (R98). -/
structure WaitingPoll where
  port   : PortId
  source : Station
  cycle  : Nat
deriving DecidableEq, Repr, Inhabited

/-- What the Chain Supervisor keeps (chapter 5). `stopStage` is the stage of the request that entered Stopping (R85). The last
four fields serve the periodic part in progress (R77, R98). Planes are numbered 1 to 16, sets of planes in rising order. -/
structure Chain where
  record       : ChainRecord := {}
  mode         : DriveMode := .halted
  clearing     : Nat := 0
  plan         : Option Plan := none
  replans      : Nat := 0
  stopStage    : Stage := .none
  parkSet      : List Nat := []
  unclosable   : List Nat := []
  armed        : Bool := false
  lamp         : Option Bool := none
  lampResult   : Option OrderResult := none
  staged       : Permit := {}
  lateAnswers  : Nat := 0
  pollOverruns : Nat := 0
  waitingPoll  : Option WaitingPoll := none
  reportTaken  : Bool := false
  evaluated    : Bool := false
  evalPlan     : Option Nat := none
deriving DecidableEq, Repr, Inhabited

/-- A plan request (R107). -/
structure PlanRequest where
  number : Nat
  parkSet : List Nat
  x      : Nat
  v      : Nat
  stage  : Stage
  speed  : Nat
deriving DecidableEq, Repr, Inhabited

/-- The outcome of a plan (R107). -/
inductive PlanOutcome
  | clear
  | target (position travel : Nat)
deriving DecidableEq, Repr, Inhabited

/-- A plan answer (R107): the outcome, D, the closable set with its arc start, arc end, span and target phase (absent for an
empty set), and the unclosable planes. -/
structure PlanAnswer where
  outcome    : PlanOutcome
  stopping   : Nat
  closable   : List Nat
  arc        : Option (Nat × Nat × Nat × Nat)
  unclosable : List Nat
deriving DecidableEq, Repr, Inhabited

/-- The feasibility record (R112). -/
inductive Feasibility
  | notKnown
  | yesEmpty
  | yes (arcFrom arcTo phase : Nat)
  | no (run : List Nat)
deriving DecidableEq, Repr, Inhabited

/-- What the Park Computer keeps (chapter 6). -/
structure ParkComputer where
  inProgress  : Option PlanRequest := none
  lastRequest : Nat := 0
  lastAnswer  : Option (PlanRequest × PlanAnswer) := none
  arcStarts   : List (Option Nat) := List.replicate 16 none
  feasibility : Feasibility := .notKnown
deriving DecidableEq, Repr, Inhabited

/-- The states of a slide record (R117, 12.6). -/
inductive SlideState
  | unknown
  | opened
  | closing
  | closed
  | opening
  | jammed
  | lost
deriving DecidableEq, Repr, Inhabited

/-- The move ordered of a slide record (R117). -/
inductive SlideMove
  | close
  | openMove
deriving DecidableEq, Repr, Inhabited

/-- A slide record (R117). `moveAt` is the place of its move among all moves placed, by which R118 finds the most recent. -/
structure SlideRecord where
  state   : SlideState := .unknown
  move    : Option SlideMove := none
  last    : Option SlidePos := none
  timer   : Nat := 0
  silence : Nat := 0
  moveAt  : Nat := 0
deriving DecidableEq, Repr, Inhabited

/-- The states of a floor shutter record (R129, 12.6). -/
inductive ShutterState
  | unknown
  | opened
  | lowering
  | paused
  | lowered
  | raising
  | jammed
  | lost
deriving DecidableEq, Repr, Inhabited

/-- The move ordered of a floor shutter record (R129). -/
inductive ShutterMove
  | toPause
  | full
  | raise
deriving DecidableEq, Repr, Inhabited

/-- A floor shutter record (R129). `owed` is whether it became Paused or Jammed under a set dropped flag, so that Lower Full
is given again (R134). -/
structure ShutterRecord where
  state   : ShutterState := .unknown
  move    : Option ShutterMove := none
  last    : Option ShutterPos := none
  timer   : Nat := 0
  silence : Nat := 0
  owed    : Bool := false
deriving DecidableEq, Repr, Inhabited

/-- The states of a lowering sequence (section 7.7). -/
inductive SequenceState
  | idle
  | sequencing
  | complete
deriving DecidableEq, Repr, Inhabited

/-- The causes of a lowering sequence (section 7.7). -/
inductive SequenceCause
  | night
  | evacuation
  | drop
deriving DecidableEq, Repr, Inhabited

/-- A lowering sequence (section 7.7). The escape hold of a sequence of cause Evacuation has expired when its timer is 0. An Idle
sequence has no cause and group 0: section 7.7 gives it neither (R136; DESIGN CHOICE, log 45). -/
structure LoweringSequence where
  state   : SequenceState := .idle
  cause   : Option SequenceCause := none
  group   : Nat := 0
  since   : Nat := 0
  timer   : Nat := 0
  dropped : Bool := false
deriving DecidableEq, Repr, Inhabited

/-- The source of a play item (R141). -/
inductive ItemSource
  | call (id : Nat)
  | step (k : Nat)
  | stream
  | test
deriving DecidableEq, Repr, Inhabited

/-- What an item plays (R141). -/
inductive ItemContent
  | pattern (code : Nat)
  | phrase (cue : Nat)
deriving DecidableEq, Repr, Inhabited

/-- An item of a post queue (R141). Its priority follows from its source. -/
structure Item where
  content  : ItemContent
  source   : ItemSource
  repeats  : Nat
  enqueued : Nat
deriving DecidableEq, Repr, Inhabited

/-- The outcomes of an item (R142). -/
inductive ItemOutcome
  | completed
  | evicted
  | refused
  | discarded
deriving DecidableEq, Repr, Inhabited

/-- The states of a post record (R139, 12.6). -/
inductive PostState
  | disabled
  | unknown
  | idle
  | playing
  | halting
  | lost
deriving DecidableEq, Repr, Inhabited

/-- The order phase of a post record (R139). -/
inductive OrderPhase
  | none
  | pending
  | inChannel
  | confirmed
deriving DecidableEq, Repr, Inhabited

/-- What dispatch looked up for the current item (R144): the pattern's slots and divider code, or the phrase's seconds. -/
inductive Lookup
  | pattern (slots : BitVec 16) (divider : Nat)
  | phrase (seconds : Nat)
deriving DecidableEq, Repr, Inhabited

/-- The three counters of a post (R139, R142, R147). They stand outside the post record, since an item refused by an unused post is
counted too (R142); a post keeps them through every commit (DESIGN CHOICE, log 46). -/
structure PostCounters where
  evicted : Nat := 0
  refused : Nat := 0
  overdue : Nat := 0
deriving DecidableEq, Repr, Inhabited

/-- A post record with its queue (R139, R141). `heard` says that a report has been taken from the station since the record was created, or
since its station last changed: the part of R138's report on hand that the silence count does not say (`Post.onHand`). -/
structure Post where
  state      : PostState := .unknown
  current    : Option Item := none
  phase      : OrderPhase := .none
  preempt    : Bool := false
  deadline   : Nat := 0
  silence    : Nat := 0
  heard      : Bool := false
  lookup     : Option Lookup := none
  queue      : List Item := []
  lastTest   : Option ItemOutcome := none
deriving DecidableEq, Repr, Inhabited

/-- An active call (R155). -/
structure Call where
  id           : Nat
  origin       : Station
  replyClass   : Cls
  replyToggle  : Bool
  originalCode : Nat
  code         : Nat
  posts        : BitVec 16
  given        : Nat
  remaining    : Nat
  interval     : Nat
  nextRound    : Nat
  escalated    : Bool
  completed    : Nat
  lost         : Nat
deriving DecidableEq, Repr, Inhabited

/-- The cause of an evacuation (R174). -/
inductive FireCause
  | report (zone : Nat)
  | alarm
deriving DecidableEq, Repr, Inhabited

/-- A step record (R170). -/
structure StepRecord where
  cycle     : Option Nat := none
  completed : Nat := 0
  lost      : Nat := 0
deriving DecidableEq, Repr, Inhabited

/-- The store clock and day (R165 to R170, R172). -/
structure Day where
  mode       : StoreMode := .unloaded
  clockSet   : Bool := false
  second     : Nat := 0
  sub        : Nat := 0
  pointer    : Option Nat := none
  lastStep   : Option Nat := none
  steps      : List StepRecord := List.replicate 12 {}
  alarm      : Bool := false
  alarmRun   : Nat := 0
deriving DecidableEq, Repr, Inhabited

/-- The fire zone record and the evacuation stream (R174, R176), with the silence count of each fire panel station (R173). -/
structure Fire where
  zones           : List Nat := []
  affected        : List Nat := []
  cause           : Option FireCause := none
  startCycle      : Option Nat := none
  endCycle        : Option Nat := none
  streamCompleted : Nat := 0
  streamLost      : Nat := 0
  streamOn        : Bool := false
  streamTimer     : Nat := 0
  nextIsPattern   : Bool := false
  panels          : List (Station × Nat) := []
deriving DecidableEq, Repr, Inhabited

/-- The fault codes, in the order of 12.6. -/
inductive FaultCode
  | spurOvercurrent
  | positionJump
  | overspeed
  | driveFault
  | landingEdgeTrip
  | movedWhileParked
  | parkMissed
  | chainReportLost
  | lampOrderFailed
  | planeUnclosable
  | slideFault
  | slideMovedUnordered
  | slideJammed
  | slideStationLost
  | slideWithheld
  | shutterFault
  | shutterJammed
  | shutterStationLost
  | orderRejected
  | orderRefused
  | noReply
  | unroutable
  | postStationLost
  | postPlayOverdue
  | firePanelLost
  | warmReset
deriving DecidableEq, Repr, Inhabited

/-- A fault as the fault record keeps it (R185). -/
structure FaultEntry where
  code    : FaultCode
  cycle   : Nat
  station : Station
deriving DecidableEq, Repr, Inhabited

/-- The fault record (R185). -/
structure FaultRecord where
  first   : Option FaultEntry := none
  further : Nat := 0
deriving DecidableEq, Repr, Inhabited

/-- The notice sequences of the four places and the notice lost counter (R184). -/
structure Notices where
  sequences : List Nat := List.replicate 4 0
  lost      : Nat := 0
deriving DecidableEq, Repr, Inhabited

/-- A table as loaded (R181, R190): the bytes of each entry, from the table's first entry number upward. -/
abbrev Table := List (List Byte)

/-- A timed event that restarts its own timer and was commanded ahead of the coming cycle start (log 4). -/
inductive Ahead
  | clock
  | stream
  | round (id : Nat)
deriving DecidableEq, Repr, Inhabited

/-- The fourteen tables as they stand after power-up (R188), each with the entry size of 12.7. Route: Flood for
every station (R36). Chain Parameters: T 25, J 100, clearing time 30, the rest without a value, sent as 0 (R73, R190). Floor
Shutters: escape hold time 120 (R126). Day Settings: period 30 (R171). Line Settings: mark code 1, silence limit 25, frame age
limit 25, hold limit 100, tries 3, reply window 4, Immediate (R2, R19, R52, R48, R62, R63, R97). -/
def powerUpTables : List Table :=
  [ List.replicate 128 [4#8],
    List.replicate 32 (List.replicate 7 0#8),
    List.replicate 4 (List.replicate 2 0#8),
    [List.replicate 12 0#8 ++ [25#8, 0#8, 100#8, 30#8]],
    List.replicate 16 (List.replicate 7 0#8),
    [0#8, 120#8, 0#8, 0#8, 0#8] :: List.replicate 24 (List.replicate 5 0#8),
    List.replicate 16 [0#8],
    List.replicate 16 (List.replicate 3 0#8),
    List.replicate 48 (List.replicate 7 0#8),
    List.replicate 64 [0#8],
    List.replicate 12 (List.replicate 9 0#8),
    [[30#8, 0#8, 0#8, 0#8]],
    [[1#8, 25#8, 25#8, 100#8, 3#8, 4#8, 0#8]],
    List.replicate 5 (List.replicate 4 0#8) ]

/-- Everything the part holds; `State` adds the queue of waiting commands. Tables, pending copies and committed marks are in
the order of their ids 1 to 14 (section 11.3). `sent` is what the last command put on the lines, in order (log 8). -/
structure Part where
  own         : Station := 120
  beforeFirst : Bool := true
  cycle       : Nat := 0
  periodic    : Bool := false
  markCode    : Nat := 1
  sent        : List (PortId × Frame) := []
  portN       : Port := {}
  portS       : Port := {}
  portW       : Port := {}
  agent       : AgentPort := {}
  cooldown    : Nat := 0
  hold        : List HoldEntry := []
  gates       : Gates := {}
  orders      : List PendingOrder := []
  channels    : List Channel := List.replicate 12 {}
  toggles     : List Bool := List.replicate 128 false
  stale       : Nat := 0
  builds      : Nat := 0
  moves       : Nat := 0
  chain       : Chain := {}
  park        : ParkComputer := {}
  slides      : List (Option SlideRecord) := List.replicate 16 none
  withheld    : List Nat := []
  shutters    : List (Option ShutterRecord) := List.replicate 24 none
  sequences   : List LoweringSequence := List.replicate 8 {}
  posts       : List (Option Post) := List.replicate 16 none
  postCounts  : List PostCounters := List.replicate 16 {}
  calls       : List Call := []
  lastCall    : Nat := 0
  unmatched   : Nat := 0
  day         : Day := {}
  fire        : Fire := {}
  claim       : Option Station := none
  tables      : List Table := powerUpTables
  copies      : List (Option Table) := List.replicate 14 none
  committed   : List Bool := List.replicate 14 false
  notices     : Notices := {}
  faults      : FaultRecord := {}
  ahead       : List Ahead := []
deriving DecidableEq, Repr, Inhabited

/-- The state of the machine: the part, and the commands waiting for it, first in, first out. -/
structure State where
  part    : Part := {}
  pending : List Instr := []
deriving DecidableEq, Repr, Inhabited

/-- Reasons for the machine to stop with a fault. None exists: the part never stops (INVENTORY, Faults), and what the spec
calls a fault is an entry of the fault record (R185). Nothing raises one; safe. -/
inductive Fault
deriving DecidableEq, Repr

/-- Reasons for the machine to refuse a command. -/
inductive Refusal
  /-- Raised by `exec` for a command that has no meaning yet, by its mnemonic; safe. -/
  | notModelled (mnemonic : String)
deriving DecidableEq, Repr

/-- The part as power-up leaves it, before the cycle start of cycle 0, with the own number the straps give (R15, R188). -/
def Part.powerUp (strap : Nat) : Part := { own := 120 + strap % 8 }

/-- The machine right after reset: power-up with strap value 0 (DESIGN CHOICE, log 1), no command waiting. -/
def State.reset : State := { part := Part.powerUp 0 }

end Sys2Proof.Machine
end

