-- ==== Sys2Proof/Machine/Codec.lean ====
section
/-! DEFINITION. The bytes of the line (chapter 12): numbers in bytes, the check word, the frame header, the code tables, and
the payloads of the frames the part builds and takes. -/

namespace Sys2Proof.Machine

/-! ## Numbers in bytes -/

/-- The byte of a number below 256. -/
def byteOf (n : Nat) : Byte := BitVec.ofNat 8 n

/-- A two-byte field, most significant byte first. -/
def pairOf (n : Nat) : List Byte := [byteOf (n / 256), byteOf n]

/-- A three-byte field, most significant byte first. -/
def tripleOf (n : Nat) : List Byte := [byteOf (n / 65536), byteOf (n / 256), byteOf n]

/-- The number a multi-byte field holds, most significant byte first. -/
def numberOf (bs : List Byte) : Nat := bs.foldl (fun n b => n * 256 + b.toNat) 0

/-- Byte `i` of a list of bytes, 0 beyond its end. -/
def byteAt (bs : List Byte) (i : Nat) : Nat := (bs.getD i 0#8).toNat

/-- The two-byte field at byte `i`. -/
def pairAt (bs : List Byte) (i : Nat) : Nat := byteAt bs i * 256 + byteAt bs (i + 1)

/-- The three-byte field at byte `i`. -/
def tripleAt (bs : List Byte) (i : Nat) : Nat := pairAt bs i * 256 + byteAt bs (i + 2)

/-- Bit `k` of a number, bit 0 the least significant. -/
def bitOf (n k : Nat) : Bool := n / 2 ^ k % 2 = 1

/-- A flag as a byte. -/
def flagByte (b : Bool) : Byte := if b then 1#8 else 0#8

/-- A 16-bit mask of numbers 1 to 16, in which bit k − 1 stands for k (12, opening, for posts and compartments; for sets of planes and zones a
DESIGN CHOICE, log 76). -/
def maskOf (ks : List Nat) : Nat := ks.foldl (fun m k => m ||| 2 ^ (k - 1)) 0

/-- The numbers 1 to `n` a mask names, in rising order. -/
def inMask (n mask : Nat) : List Nat := (List.range n).filterMap fun i => if bitOf mask i then some (i + 1) else none

/-- A flag byte of a Report: 1 set, 0 clear, another byte as the free value says (log 12). -/
def flagSet (b : Byte) : Bool := if b = 1#8 then true else if b = 0#8 then false else Config.oddFlag b

/-! ## The check word -/

/-- One step of the check word's register: shift out the most significant bit, and add the polynomial where it was set (R8). -/
def crcBit (r : Nat) : Nat := if 32768 ≤ r then Nat.xor ((r - 32768) * 2) 0x1021 else r * 2

/-- The register after one byte, taken most significant bit first. -/
def crcByte (r : Nat) (b : Byte) : Nat :=
  crcBit (crcBit (crcBit (crcBit (crcBit (crcBit (crcBit (crcBit (Nat.xor r (b.toNat * 256)))))))))

/-- The check word over a run of bytes (R8). -/
def checkWord (bs : List Byte) : Nat := bs.foldl crcByte 0xFFFF

/-! ## Code tables (12.6) -/

/-- The class code of the header (12.1). -/
def clsCode : Cls → Nat
  | .safety => 0
  | .drive => 1
  | .signal => 2
  | .service => 3

/-- The class of a two-bit code. -/
def clsOf (n : Nat) : Cls :=
  match n with
  | 0 => .safety
  | 1 => .drive
  | 2 => .signal
  | _ => .service

/-- The port code of a Manage frame and of the Read of a port (12.5). -/
def portCode : PortId → Nat
  | .n => 0
  | .s => 1
  | .w => 2

/-- The port of a code, none for any other value (12.5). -/
def portOf (n : Nat) : Option PortId :=
  match n with
  | 0 => some .n
  | 1 => some .s
  | 2 => some .w
  | _ => none

def storeModeCode : StoreMode → Nat
  | .unloaded => 0
  | .trading => 1
  | .warning => 2
  | .lastCall => 3
  | .closed => 4
  | .night => 5
  | .evacuation => 6

def driveModeCode : DriveMode → Nat
  | .halted => 0
  | .running => 1
  | .lastCall => 2
  | .stopping => 3
  | .parked => 4
  | .tripped => 5

def driveStateCode : DriveState → Nat
  | .braked => 0
  | .creeping => 1
  | .running => 2
  | .fault => 3

def driveStateOf (n : Nat) : Option DriveState :=
  match n with
  | 0 => some .braked
  | 1 => some .creeping
  | 2 => some .running
  | 3 => some .fault
  | _ => none

def stageCode : Stage → Nat
  | .none => 0
  | .creep => 1
  | .run => 2

def slidePosCode : SlidePos → Nat
  | .opened => 0
  | .closed => 1
  | .between => 2
  | .fault => 3

def slidePosOf (n : Nat) : Option SlidePos :=
  match n with
  | 0 => some .opened
  | 1 => some .closed
  | 2 => some .between
  | 3 => some .fault
  | _ => none

def shutterPosCode : ShutterPos → Nat
  | .opened => 0
  | .atPause => 1
  | .lowered => 2
  | .between => 3
  | .fault => 4

def shutterPosOf (n : Nat) : Option ShutterPos :=
  match n with
  | 0 => some .opened
  | 1 => some .atPause
  | 2 => some .lowered
  | 3 => some .between
  | 4 => some .fault
  | _ => none

def portStateCode : PortState → Nat
  | .off => 0
  | .training => 1
  | .up => 2
  | .silent => 3
  | .faulted => 4

def freshnessCode : Freshness → Nat
  | .unknown => 0
  | .fresh => 1
  | .extrapolated => 2
  | .stale => 3

def slideStateCode : SlideState → Nat
  | .unknown => 0
  | .opened => 1
  | .closing => 2
  | .closed => 3
  | .opening => 4
  | .jammed => 5
  | .lost => 6

def shutterStateCode : ShutterState → Nat
  | .unknown => 0
  | .opened => 1
  | .lowering => 2
  | .paused => 3
  | .lowered => 4
  | .raising => 5
  | .jammed => 6
  | .lost => 7

def postStateCode : PostState → Nat
  | .disabled => 0
  | .unknown => 1
  | .idle => 2
  | .playing => 3
  | .halting => 4
  | .lost => 5

/-- The fault codes count from 1 in the order of 12.6. -/
def faultNumber : FaultCode → Nat
  | .spurOvercurrent => 1
  | .positionJump => 2
  | .overspeed => 3
  | .driveFault => 4
  | .landingEdgeTrip => 5
  | .movedWhileParked => 6
  | .parkMissed => 7
  | .chainReportLost => 8
  | .lampOrderFailed => 9
  | .planeUnclosable => 10
  | .slideFault => 11
  | .slideMovedUnordered => 12
  | .slideJammed => 13
  | .slideStationLost => 14
  | .slideWithheld => 15
  | .shutterFault => 16
  | .shutterJammed => 17
  | .shutterStationLost => 18
  | .orderRejected => 19
  | .orderRefused => 20
  | .noReply => 21
  | .unroutable => 22
  | .postStationLost => 23
  | .postPlayOverdue => 24
  | .firePanelLost => 25
  | .warmReset => 26

/-- The results of a Manage order (R180, 12.6). -/
inductive ManageResult
  | done
  | refusedClaim
  | refusedState
  | refusedRange
  | refusedCheck
  | unknownOrder
deriving DecidableEq, Repr, Inhabited

def manageResultCode : ManageResult → Nat
  | .done => 0
  | .refusedClaim => 1
  | .refusedState => 2
  | .refusedRange => 3
  | .refusedCheck => 4
  | .unknownOrder => 5

/-- The reasons of a Call Confirm (R157, 12.6). -/
inductive CallReason
  | new
  | merged
  | tableFull
  | outOfRange
  | notInService
  | evacuation
  | notLoaded
  | expired
deriving DecidableEq, Repr, Inhabited

def callReasonCode : CallReason → Nat
  | .new => 0
  | .merged => 1
  | .tableFull => 2
  | .outOfRange => 3
  | .notInService => 4
  | .evacuation => 5
  | .notLoaded => 6
  | .expired => 7

/-- The results a Confirm carries (R14, 12.6). -/
inductive ConfirmResult
  | accepted
  | busy
  | rejected
deriving DecidableEq, Repr, Inhabited

def confirmCode : ConfirmResult → Nat
  | .accepted => 0
  | .busy => 1
  | .rejected => 2

def confirmOf (n : Nat) : Option ConfirmResult :=
  match n with
  | 0 => some .accepted
  | 1 => some .busy
  | 2 => some .rejected
  | _ => none

/-! ## Kinds (R10) -/

abbrev kindMark : Nat := 0
abbrev kindReport : Nat := 1
abbrev kindPoll : Nat := 2
abbrev kindAnswer : Nat := 3
abbrev kindOrder : Nat := 4
abbrev kindConfirm : Nat := 5
abbrev kindCall : Nat := 6
abbrev kindAcknowledge : Nat := 7
abbrev kindNotice : Nat := 8
abbrev kindManage : Nat := 9
abbrev kindReply : Nat := 10
abbrev kindReset : Nat := 11

/-- The kinds that the part alone sends: Mark, Answer, Notice and Manage Reply (R11). -/
def partOnlyKind (k : Nat) : Bool := k = kindMark || k = kindAnswer || k = kindNotice || k = kindReply

/-! ## Frames -/

/-- The four header bytes (12.1). -/
def headerBytes (f : Frame) : List Byte :=
  [ byteOf ((if f.replyWanted then 128 else 0) + f.dest % 128),
    byteOf ((if f.toggle then 128 else 0) + f.source % 128),
    byteOf (clsCode f.cls * 64 + f.kind % 16 * 4 + f.spare % 4),
    byteOf f.payload.length ]

/-- All bytes before the check word, over which it is computed (R8). -/
def coveredBytes (f : Frame) : List Byte := headerBytes f ++ f.payload

/-- The frame as it stands on the line. -/
def frameBytes (f : Frame) : List Byte := coveredBytes f ++ pairOf f.check

/-- The frame with its check word computed anew (R8). -/
def withCheck (f : Frame) : Frame := { f with check := checkWord (coveredBytes f) }

/-- A frame the part builds: source the own number, bits 1 and 0 of byte 2 sent as 0, check word computed (R8, R12, R189). -/
def builtFrame (own dest : Station) (cls : Cls) (kind : Nat) (toggle replyWanted : Bool) (payload : List Byte) : Frame :=
  withCheck { replyWanted, dest, toggle, source := own, cls, kind, spare := 0, payload, check := 0 }

/-- The frame that a run of bytes spells, read by the layout of 12.1; the last two bytes are the check word. -/
def parseFrame (bs : List Byte) : Frame :=
  { replyWanted := bitOf (byteAt bs 0) 7
    dest := byteAt bs 0 % 128
    toggle := bitOf (byteAt bs 1) 7
    source := byteAt bs 1 % 128
    cls := clsOf (byteAt bs 2 / 64)
    kind := byteAt bs 2 / 4 % 16
    spare := byteAt bs 2 % 4
    payload := (bs.drop 4).take (bs.length - 6)
    check := pairAt bs (bs.length - 2) }

/-- The check word test of R25: the received check word equals the one computed over the bytes before it. A run of fewer than
two bytes has no check word to compare and fails (DESIGN CHOICE, log 11). -/
def checkPasses (bs : List Byte) : Bool :=
  2 ≤ bs.length && checkWord (bs.take (bs.length - 2)) = pairAt bs (bs.length - 2)

/-- The form test of R25. -/
def formPasses (own : Station) (bs : List Byte) : Bool :=
  6 ≤ bs.length && byteAt bs 3 ≤ 24 && bs.length = 6 + byteAt bs 3 && byteAt bs 1 % 128 ≠ 0 && byteAt bs 1 % 128 ≠ own

/-! ## Payloads the part builds -/

/-- The order code of R14. -/
def orderCode : Order → Nat
  | .lampsOn => 1
  | .lampsOff => 2
  | .slideClose => 3
  | .slideOpen => 4
  | .shutterToPause => 5
  | .shutterFull => 6
  | .shutterRaise => 7
  | .playPattern _ _ _ => 8
  | .playPhrase _ _ => 9
  | .haltPlay => 10

/-- An order's parameters after its code (12.3). -/
def orderArgs : Order → List Byte
  | .playPattern slots divider repeats => pairOf slots.toNat ++ [byteOf divider, byteOf repeats]
  | .playPhrase cue repeats => [byteOf cue, byteOf repeats]
  | .lampsOn | .lampsOff | .slideClose | .slideOpen | .shutterToPause | .shutterFull | .shutterRaise | .haltPlay => []

/-- The payload of an Order frame (12.3). -/
def orderPayload (o : Order) : List Byte := byteOf (orderCode o) :: orderArgs o

/-- The payload of a Mark (12.2). -/
def markPayload (cycle credit space : Nat) (store : StoreMode) (drive : DriveMode) (training : Bool) : List Byte :=
  pairOf cycle ++ [byteOf credit, byteOf space, byteOf (storeModeCode store), byteOf (driveModeCode drive), flagByte training]

/-- The payload of a Permit Answer (R96, 12.2). -/
def answerPayload (cycle : Nat) (stage : Stage) (target : Option Nat) (mode : DriveMode) (late overrun : Bool) : List Byte :=
  let flags := (if late then 1 else 0) + (if overrun then 2 else 0) + (if target.isSome then 4 else 0)
  pairOf cycle ++ [byteOf (stageCode stage), byteOf (driveModeCode mode), byteOf flags] ++
    match target with
    | some x => tripleOf x
    | none => []

/-! ## Reports (R13) -/

/-- A Report by its code, with the fields it carries. -/
inductive Report
  | chainPosition (position speed : Nat) (state : DriveState) (edge : Bool)
  | driveState (state : DriveState)
  | landingEdge
  | slide (pos : SlidePos)
  | shutter (pos : ShutterPos)
  | postReady
  | postDone (completed : Nat)
  | postHalted (completed : Nat)
  | zoneAlarm (zone : Nat)
  | zoneClear (zone : Nat)
  | dropNow (mask : Nat)
  | presence
deriving DecidableEq, Repr, Inhabited

/-- The Report a payload spells: none where its code is none of R13's, its length is not that of its code, or a coded field
holds a value without a code (R13, R189; a speed above 1023 counts as one). -/
def decodeReport (bs : List Byte) : Option Report :=
  match bs with
  | [c] =>
    match c.toNat with
    | 3 => some .landingEdge
    | 6 => some .postReady
    | 12 => some .presence
    | _ => none
  | [c, a] =>
    match c.toNat with
    | 2 => (driveStateOf a.toNat).map .driveState
    | 4 => (slidePosOf a.toNat).map .slide
    | 5 => (shutterPosOf a.toNat).map .shutter
    | 7 => some (.postDone a.toNat)
    | 8 => some (.postHalted a.toNat)
    | 9 => some (.zoneAlarm a.toNat)
    | 10 => some (.zoneClear a.toNat)
    | 11 => some (.dropNow a.toNat)
    | _ => none
  | [c, _, _, _, _, _, d, e] =>
    if c.toNat = 1 ∧ pairAt bs 4 ≤ 1023 then
      (driveStateOf d.toNat).map fun ds => .chainPosition (tripleAt bs 1) (pairAt bs 4) ds (flagSet e)
    else none
  | _ => none

end Sys2Proof.Machine
end

