-- ==== Sys2Proof/Machine/Tables.lean ====
section
/-! DEFINITION. The fourteen loadable tables (section 11.3): their entry sizes and numbers, and the fields their bytes hold by
the layouts of 12.7. A table is kept as its bytes, as loaded (R190); every field is read from them here. -/

namespace Sys2Proof.Machine

/-- The ids of the tables (section 11.3). -/
abbrev tRoute : Nat := 1
abbrev tPass : Nat := 2
abbrev tRoles : Nat := 3
abbrev tChain : Nat := 4
abbrev tPlanes : Nat := 5
abbrev tShutters : Nat := 6
abbrev tZones : Nat := 7
abbrev tPosts : Nat := 8
abbrev tBells : Nat := 9
abbrev tPhrases : Nat := 10
abbrev tSchedule : Nat := 11
abbrev tDay : Nat := 12
abbrev tLine : Nat := 13
abbrev tSubs : Nat := 14

/-- The size in bytes of an entry of table `id` (12.7); entry 0 of the Floor Shutter Table has the same size, its bytes 2 to 4
not examined (log 28). -/
def entrySize (id : Nat) : Nat :=
  match id with
  | 1 => 1
  | 2 => 7
  | 3 => 2
  | 4 => 16
  | 5 => 7
  | 6 => 5
  | 7 => 1
  | 8 => 3
  | 9 => 7
  | 10 => 1
  | 11 => 9
  | 12 => 4
  | 13 => 7
  | 14 => 4
  | _ => 1

/-- The number of the first entry of table `id` (R181): 0 for the Route Table and where a table has table-wide fields or is a
single record, 1 elsewhere. -/
def entryLow (id : Nat) : Nat :=
  match id with
  | 1 => 0
  | 4 => 0
  | 6 => 0
  | 12 => 0
  | 13 => 0
  | 14 => 0
  | _ => 1

/-- Table `id` of a list of tables. -/
def tableIn (ts : List Table) (id : Nat) : Table := ts.getD (id - 1) []

/-- The table in force with that id. -/
def Part.table (p : Part) (id : Nat) : Table := tableIn p.tables id

/-- The bytes of entry `n` of a table with that id. -/
def entryOf (id : Nat) (t : Table) (n : Nat) : List Byte := t.getD (n - entryLow id) []

/-! ## Route and pass rules -/

/-- The route of station `d` (12.7); a byte above 4 is taken as None (R190). -/
def routeOf (t : Table) (d : Station) : Route :=
  match byteAt (entryOf tRoute t d) 0 with
  | 1 => .port .n
  | 2 => .port .s
  | 3 => .port .w
  | 4 => .flood
  | _ => .none

def Part.route (p : Part) (d : Station) : Route := routeOf (p.table tRoute) d

/-- The agents a pass rule can name (R41). -/
inductive Agent
  | chainSupervisor
  | shutterSequencer
  | postUnit
  | callUnit
  | dayUnit
  | managementAgent
deriving DecidableEq, Repr, Inhabited

def agentOf (n : Nat) : Option Agent :=
  match n with
  | 1 => some .chainSupervisor
  | 2 => some .shutterSequencer
  | 3 => some .postUnit
  | 4 => some .callUnit
  | 5 => some .dayUnit
  | 6 => some .managementAgent
  | _ => none

def holdConditionOf (n : Nat) : Option HoldCondition :=
  match n with
  | 1 => some .chainAtRest
  | 2 => some .notEvacuation
  | 3 => some .tradingHours
  | _ => none

/-- The actions of a pass rule (R40 to R43). -/
inductive Action
  | pass
  | drop
  | copy (a : Option Agent)
  | take (a : Option Agent)
  | redirect (d : Station)
  | hold (c : Option HoldCondition)
deriving DecidableEq, Repr, Inhabited

/-- The action of a pass rule entry, none where the entry is empty (12.7). -/
def actionOf (e : List Byte) : Option Action :=
  let arg := byteAt e 6
  match byteAt e 0 with
  | 1 => some .pass
  | 2 => some .drop
  | 3 => some (.copy (agentOf arg))
  | 4 => some (.take (agentOf arg))
  | 5 => some (.redirect arg)
  | 6 => some (.hold (holdConditionOf arg))
  | _ => none

/-- Whether the five match fields of a pass rule entry accept a frame under a store mode (R39). -/
def ruleMatches (e : List Byte) (f : Frame) (m : StoreMode) : Bool :=
  (byteAt e 1 = 0 || byteAt e 1 = f.source) &&
  (byteAt e 2 = 128 || byteAt e 2 = f.dest) &&
  bitOf (byteAt e 3) (clsCode f.cls) &&
  (byteAt e 4 = 16 || byteAt e 4 = f.kind) &&
  bitOf (byteAt e 5) (storeModeCode m)

/-- The action of the first entry that matches, Pass where none does (R39). -/
def passAction (t : Table) (f : Frame) (m : StoreMode) : Action :=
  match t.find? fun e => (actionOf e).isSome && ruleMatches e f m with
  | some e => (actionOf e).getD .pass
  | none => .pass

/-! ## Roles (R16) -/

/-- A station byte of a table, none where it is 0. -/
def stationOf (b : Nat) : Option Station := if b = 0 then none else some b

/-- The stations of an entry of the Roles table, with byte 1 of entries 1 and 3 not examined (12.7). -/
def rolesEntry (t : Table) (n : Nat) : List Station :=
  let e := entryOf tRoles t n
  let second := if n = 2 || n = 4 then [byteAt e 1] else []
  (byteAt e 0 :: second).filterMap stationOf

/-- The drive station, if the Roles table names one. -/
def Part.driveStation (p : Part) : Option Station := (rolesEntry (p.table tRoles) 1).head?

/-- The fire panel stations. -/
def Part.panelStations (p : Part) : List Station := rolesEntry (p.table tRoles) 2

/-- The brigade console. -/
def Part.brigade (p : Part) : Option Station := (rolesEntry (p.table tRoles) 3).head?

/-- The office consoles. -/
def Part.offices (p : Part) : List Station := rolesEntry (p.table tRoles) 4

/-! ## Chain Parameters (R73) -/

/-- The Chain Parameters table by its fields. -/
structure ChainParams where
  loop     : Nat
  cabins   : Nat
  body     : Nat
  margin   : Nat
  runLimit : Nat
  creep    : Nat
  decel    : Nat
  stopTol  : Nat
  jumpTol  : Nat
  clearing : Nat
deriving DecidableEq, Repr, Inhabited

/-- The fields of a Chain Parameters table (12.7). -/
def chainParamsOf (t : Table) : ChainParams :=
  let e := entryOf tChain t 0
  { loop := tripleAt e 0, cabins := byteAt e 3, body := pairAt e 4, margin := byteAt e 6, runLimit := pairAt e 7,
    creep := byteAt e 9, decel := pairAt e 10, stopTol := byteAt e 12, jumpTol := pairAt e 13, clearing := byteAt e 15 }

/-- Whether table `id` has been committed since power-up (R169, R182). -/
def Part.isCommitted (p : Part) (id : Nat) : Bool := p.committed.getD (id - 1) false

/-- The Chain Parameters in force, none before the first commit (R73). -/
def Part.chainParams (p : Part) : Option ChainParams :=
  if p.isCommitted tChain then some (chainParamsOf (p.table tChain)) else none

/-- The pitch P (R73). -/
def ChainParams.pitch (c : ChainParams) : Nat := c.loop / c.cabins

/-- The clear width W (R73). -/
def ChainParams.width (c : ChainParams) : Int := (c.pitch : Int) - c.body - 2 * c.margin

/-! ## Planes (R114) -/

/-- A Plane Table entry by its fields. -/
structure PlaneEntry where
  station     : Station
  coordinate  : Nat
  floor       : Nat
  down        : Bool
  night       : Bool
  flagEnabled : Bool
  travel      : Nat
deriving DecidableEq, Repr, Inhabited

def planeEntryOf (t : Table) (k : Nat) : PlaneEntry :=
  let e := entryOf tPlanes t k
  { station := byteAt e 0, coordinate := tripleAt e 1, floor := byteAt e 4, down := bitOf (byteAt e 5) 0,
    night := bitOf (byteAt e 5) 1, flagEnabled := bitOf (byteAt e 5) 2, travel := byteAt e 6 }

/-- An entry that names a slide station is in use (R114). -/
def PlaneEntry.inUse (e : PlaneEntry) : Bool := e.station ≠ 0

/-- A plane is enabled when its entry is in use and its enabled flag is set (R114). -/
def PlaneEntry.enabled (e : PlaneEntry) : Bool := e.inUse && e.flagEnabled

/-- The plane numbers 1 to 16. -/
def planeNumbers : List Nat := (List.range 16).map (· + 1)

def Part.plane (p : Part) (k : Nat) : PlaneEntry := planeEntryOf (p.table tPlanes) k

/-- The planes of a table whose entry has a property, in rising order. -/
def planesOf (t : Table) (f : PlaneEntry → Bool) : List Nat := planeNumbers.filter fun k => f (planeEntryOf t k)

/-- The enabled planes, in rising order. -/
def Part.enabledPlanes (p : Part) : List Nat := planesOf (p.table tPlanes) PlaneEntry.enabled

/-- The planes in use that name a slide station, in rising order. -/
def Part.planesAt (p : Part) (st : Station) : List Nat :=
  planesOf (p.table tPlanes) fun e => e.inUse && e.station = st

/-! ## Floor shutters (R126) -/

/-- A Floor Shutter Table entry by its fields. -/
structure ShutterEntry where
  station     : Station
  compartment : Nat
  group       : Nat
  escape      : Bool
  night       : Bool
  travel      : Nat
deriving DecidableEq, Repr, Inhabited

def shutterEntryOf (t : Table) (k : Nat) : ShutterEntry :=
  let e := entryOf tShutters t k
  { station := byteAt e 0, compartment := byteAt e 1, group := byteAt e 2, escape := bitOf (byteAt e 3) 0,
    night := bitOf (byteAt e 3) 1, travel := byteAt e 4 }

def ShutterEntry.inUse (e : ShutterEntry) : Bool := e.station ≠ 0

/-- The escape hold time in seconds: entry 0 (12.7). -/
def escapeHoldOf (t : Table) : Nat := pairAt (entryOf tShutters t 0) 0

/-- The floor shutter entry numbers 1 to 24. -/
def shutterNumbers : List Nat := (List.range 24).map (· + 1)

def Part.shutter (p : Part) (k : Nat) : ShutterEntry := shutterEntryOf (p.table tShutters) k

/-- The shutters of a compartment: the entries in use that name it (R126). -/
def Part.shuttersOf (p : Part) (c : Nat) : List Nat :=
  shutterNumbers.filter fun k => (p.shutter k).inUse && (p.shutter k).compartment = c

/-! ## Zones, posts, bell codes, phrases -/

/-- The compartments of a zone's mask (R128). -/
def Part.zoneCompartments (p : Part) (z : Nat) : List Nat := inMask 8 (byteAt (entryOf tZones (p.table tZones) z) 0)

/-- A Post table entry by its fields (R137). -/
structure PostEntry where
  station     : Station
  floor       : Nat
  flagEnabled : Bool
deriving DecidableEq, Repr, Inhabited

def postEntryOf (t : Table) (k : Nat) : PostEntry :=
  let e := entryOf tPosts t k
  { station := byteAt e 0, floor := byteAt e 1, flagEnabled := bitOf (byteAt e 2) 0 }

def PostEntry.inUse (e : PostEntry) : Bool := e.station ≠ 0

def PostEntry.enabled (e : PostEntry) : Bool := e.inUse && e.flagEnabled

/-- The post numbers 1 to 16. -/
def postNumbers : List Nat := (List.range 16).map (· + 1)

def Part.postEntry (p : Part) (k : Nat) : PostEntry := postEntryOf (p.table tPosts) k

/-- The posts in use with their enabled flag set (R159, R176). -/
def Part.enabledPosts (p : Part) : List Nat := postNumbers.filter fun k => (p.postEntry k).enabled

/-- A Bell Code Table entry by its fields (R153); an escalation code 0 is no escalation (12.7). -/
structure BellEntry where
  loaded   : Nat
  slots    : BitVec 16
  divider  : Nat
  repeats  : Nat
  escCode  : Nat
  escPost  : Nat
deriving DecidableEq, Repr, Inhabited

def bellEntryOf (t : Table) (k : Nat) : BellEntry :=
  let e := entryOf tBells t k
  { loaded := byteAt e 0, slots := BitVec.ofNat 16 (pairAt e 1), divider := byteAt e 3, repeats := byteAt e 4,
    escCode := byteAt e 5, escPost := byteAt e 6 }

/-- The loaded entry of a bell code 1 to 48, none where it is not loaded (R153). -/
def Part.bell (p : Part) (code : Nat) : Option BellEntry :=
  let e := bellEntryOf (p.table tBells) code
  if 1 ≤ code ∧ code ≤ 48 ∧ e.loaded = 1 then some e else none

/-- The length in seconds of a phrase cue 1 to 64, none where it is not loaded (R151). -/
def Part.phrase (p : Part) (cue : Nat) : Option Nat :=
  let s := byteAt (entryOf tPhrases (p.table tPhrases) cue) 0
  if 1 ≤ cue ∧ cue ≤ 64 ∧ s ≠ 0 then some s else none

/-! ## The closing schedule (R166) -/

/-- The actions of a step. -/
inductive StepAction
  | opening
  | warning
  | lastCall
  | closing
  | night
deriving DecidableEq, Repr, Inhabited

def stepActionOf (n : Nat) : Option StepAction :=
  match n with
  | 1 => some .opening
  | 2 => some .warning
  | 3 => some .lastCall
  | 4 => some .closing
  | 5 => some .night
  | _ => none

/-- The mode of a step is given by its action (R168). -/
def StepAction.mode : StepAction → StoreMode
  | .opening => .trading
  | .warning => .warning
  | .lastCall => .lastCall
  | .closing => .closed
  | .night => .night

/-- A step of the Closing Schedule by its fields (R166). -/
structure Step where
  number  : Nat
  action  : StepAction
  time    : Nat
  cue     : Nat
  posts   : Nat
  repeats : Nat
  start   : Bool
deriving DecidableEq, Repr, Inhabited

/-- The step of an entry of the Closing Schedule, none where the entry is unused or its action has no code. -/
def stepOf (t : Table) (k : Nat) : Option Step :=
  let e := entryOf tSchedule t k
  (stepActionOf (byteAt e 0)).map fun a =>
    { number := k, action := a, time := tripleAt e 1, cue := byteAt e 4, posts := pairAt e 5, repeats := byteAt e 7,
      start := bitOf (byteAt e 8) 0 }

/-- The steps in use, in entry-number order, which R166 makes the order of time. -/
def stepsOf (t : Table) : List Step := ((List.range 12).map (· + 1)).filterMap (stepOf t)

def Part.steps (p : Part) : List Step := stepsOf (p.table tSchedule)

/-! ## Day and line settings, subscriptions -/

/-- The evacuation period in seconds (R171). -/
def Part.evacPeriod (p : Part) : Nat := byteAt (entryOf tDay (p.table tDay) 0) 0

/-- The evacuation phrase cue, 0 for none. -/
def Part.evacCue (p : Part) : Nat := byteAt (entryOf tDay (p.table tDay) 0) 1

/-- The evacuation bell code, 0 for none. -/
def Part.evacCode (p : Part) : Nat := byteAt (entryOf tDay (p.table tDay) 0) 2

/-- The evacuation repeats, 0 for none. -/
def Part.evacRepeats (p : Part) : Nat := byteAt (entryOf tDay (p.table tDay) 0) 3

/-- A byte of the Line Settings record (12.7). -/
def Part.lineByte (p : Part) (i : Nat) : Nat := byteAt (entryOf tLine (p.table tLine) 0) i

def Part.silenceLimit (p : Part) : Nat := p.lineByte 1
def Part.ageLimit (p : Part) : Nat := p.lineByte 2
def Part.holdLimit (p : Part) : Nat := p.lineByte 3
def Part.triesSetting (p : Part) : Nat := p.lineByte 4
def Part.replyWindow (p : Part) : Nat := p.lineByte 5
/-- Answer mode Held (R97). -/
def Part.heldMode (p : Part) : Bool := p.lineByte 6 = 1

/-- The stations of the Reset List (R16, R187): entry 0 of table 14. -/
def Part.resetList (p : Part) : List Station :=
  ((List.range 4).map fun i => byteAt (entryOf tSubs (p.table tSubs) 0) i).filterMap stationOf

/-- A subscriber place (R184). -/
structure Place where
  station    : Station
  conditions : Nat
  falling    : Nat
deriving DecidableEq, Repr, Inhabited

/-- Subscriber place `i`, 1 to 4; station 0 is empty (12.7). -/
def Part.place (p : Part) (i : Nat) : Place :=
  let e := entryOf tSubs (p.table tSubs) i
  { station := byteAt e 0, conditions := pairAt e 1, falling := byteAt e 3 }

/-- The place numbers 1 to 4. -/
def placeNumbers : List Nat := [1, 2, 3, 4]

/-! ## Station roles -/

/-- The roles of a station (R16). -/
inductive Role
  | drive
  | firePanel
  | brigade
  | office
  | slide
  | shutter
  | post
deriving DecidableEq, Repr, Inhabited

/-- The role of a station: the first of the seven in the order of R16 that names it, none where no table does. -/
def Part.role (p : Part) (st : Station) : Option Role :=
  if p.driveStation = some st then some .drive
  else if p.panelStations.contains st then some .firePanel
  else if p.brigade = some st then some .brigade
  else if p.offices.contains st then some .office
  else if planeNumbers.any (fun k => (p.plane k).inUse && (p.plane k).station = st) then some .slide
  else if shutterNumbers.any (fun k => (p.shutter k).inUse && (p.shutter k).station = st) then some .shutter
  else if postNumbers.any (fun k => (p.postEntry k).inUse && (p.postEntry k).station = st) then some .post
  else none

end Sys2Proof.Machine
end

