-- ==== Sys2Proof/Machine/Ops.lean ====
section
/-! DEFINITION. The operations that every block of the part shares: port access and counters, routes, frames offered to the Agent
Port, notices, the fault record, pending orders and channel access. -/

namespace Sys2Proof.Machine

/-! ## Numbered lists and saturating counters -/

/-- Entry `k`, numbered from 1, of a list of optional records. -/
def recordAt {α : Type} (l : List (Option α)) (k : Nat) : Option α := if k = 0 then none else (l.getD (k - 1) none)

/-- The list with entry `k`, numbered from 1, changed by `f`. -/
def modifyAt {α : Type} (l : List α) (k : Nat) (f : α → α) : List α := if k = 0 then l else l.modify (k - 1) f

/-- A 16-bit counter increased by 1, saturating (00, Counters). -/
def bump16 (n : Nat) : Nat := if n < 65535 then n + 1 else n

/-- An 8-bit count increased by 1, saturating. -/
def bump8 (n : Nat) : Nat := if n < 255 then n + 1 else n

/-- A timer reduced by 1 while above 0. -/
def tick (n : Nat) : Nat := n - 1

/-- Cycle starts since a cycle number, as the wrapping cycle numbers give them (00, Cycles and ages). -/
def cyclesSince (now past : Nat) : Nat := (now + 65536 - past) % 65536

/-! ## Ports and their counters -/

def Part.port (p : Part) : PortId → Port
  | .n => p.portN
  | .s => p.portS
  | .w => p.portW

def Part.modPort (p : Part) (q : PortId) (f : Port → Port) : Part :=
  match q with
  | .n => { p with portN := f p.portN }
  | .s => { p with portS := f p.portS }
  | .w => { p with portW := f p.portW }

/-- The external ports in order. -/
def portIds : List PortId := [.n, .s, .w]

/-- Whether a port receives frames, sends Marks and sends bursts: Training, Up or Silent (R17). -/
def PortState.live : PortState → Bool
  | .training => true
  | .up => true
  | .silent => true
  | .off => false
  | .faulted => false

/-- Port W's spur power: on while the port is Training, Up or Silent (R22). -/
def Part.spurPower (p : Part) : Bool := p.portW.state.live

def Counters.bump (c : Counters) : Counter → Counters
  | .received => { c with received := bump16 c.received }
  | .overrun => { c with overrun := bump16 c.overrun }
  | .badCheck => { c with badCheck := bump16 c.badCheck }
  | .badForm => { c with badForm := bump16 c.badForm }
  | .unroutable => { c with unroutable := bump16 c.unroutable }
  | .ruleDrop => { c with ruleDrop := bump16 c.ruleDrop }
  | .aged => { c with aged := bump16 c.aged }
  | .gated => { c with gated := bump16 c.gated }
  | .localRoute => { c with localRoute := bump16 c.localRoute }
  | .holdFull => { c with holdFull := bump16 c.holdFull }
  | .flushed => { c with flushed := bump16 c.flushed }

/-- A discard counted at an external port (R30). -/
def Part.count (p : Part) (q : PortId) (c : Counter) : Part :=
  p.modPort q fun x => { x with counters := x.counters.bump c }

/-- A discard counted at the Agent Port (R30). -/
def Part.countAgent (p : Part) (c : Counter) : Part :=
  { p with agent := { p.agent with counters := p.agent.counters.bump c } }

/-- A discard counted at the port of an input; a frame's arrival is never the Hold input. -/
def Part.countAt (p : Part) (i : Input) (c : Counter) : Part :=
  match i with
  | .port q => p.count q c
  | .agent => p.countAgent c
  | .hold => p

/-- Only the Up state makes a port available as a destination (R17). -/
def Part.isUp (p : Part) (q : PortId) : Bool := (p.port q).state = .up

/-- The external ports that are Up. -/
def Part.upPorts (p : Part) : List PortId := portIds.filter p.isUp

/-- Free input slots of an external port, of four (R27). -/
def Port.free (x : Port) : Nat := 4 - x.slots.length

/-- Free slots of the Agent Port, of eight (R28). -/
def AgentPort.free (x : AgentPort) : Nat := 8 - x.slots.length

/-- The class rule of R27: a Safety frame needs one free slot, any other two. -/
def classRule (free : Nat) (c : Cls) : Bool := if c = .safety then 1 ≤ free else 2 ≤ free

/-! ## Routes -/

/-- What a route resolves into (R36). -/
inductive Resolution
  | target (ports : List PortId)
  | discard (c : Counter)
deriving DecidableEq, Repr, Inhabited

/-- A route resolved against the port states, with the port of arrival or none for an Agent Port frame (R36, R38). -/
def Part.resolve (p : Part) (arrival : Option PortId) (r : Route) : Resolution :=
  match r with
  | .none => .discard .unroutable
  | .port q =>
    if arrival = some q then .discard .localRoute
    else if p.isUp q then .target [q] else .discard .unroutable
  | .flood =>
    let t := p.upPorts.filter fun q => arrival ≠ some q
    if t.isEmpty then .discard .unroutable else .target t

/-- The route for a destination: broadcast is treated as every Up port, and entry 0 is never consulted (R36, R37). -/
def Part.routeFor (p : Part) (d : Station) : Route := if d = 0 then .flood else p.route d

/-! ## The Agent Port -/

/-- Whether the Agent Port can take a frame of a class at once (R28). -/
def Part.agentRoom (p : Part) (c : Cls) : Bool := classRule p.agent.free c

/-- A frame accepted into an Agent Port slot and given its route (R28, R38): it stays with its target set, or is discarded as
unroutable. The second part says whether it was discarded. -/
def Part.agentAccept (p : Part) (f : Frame) (b : Builder) : Part × Bool :=
  let p := p.countAgent .received
  match p.resolve none (p.routeFor f.dest) with
  | .target t =>
    ({ p with agent := { p.agent with
        slots := p.agent.slots ++ [{ frame := f, builder := b, target := t, age := 0, arrived := p.cycle }] } }, false)
  | .discard c => (p.countAgent c, true)

/-- A frame offered to the Agent Port: it takes a slot at once if the class rule allows, else it joins the waiting frames
(R28, R62). A slot freed in the same command is open to it before the frames that waited (DESIGN CHOICE, log 74). -/
def Part.offer (p : Part) (f : Frame) (b : Builder) : Part :=
  if p.agentRoom f.cls then (p.agentAccept f b).1
  else { p with agent := { p.agent with waiting := p.agent.waiting ++ [{ frame := f, builder := b }] } }

/-! ## Notices (R184) -/

/-- The conditions that blocks raise, coded from 1 (12.6). -/
inductive Condition
  | portChange
  | gateEffective
  | chainFreshness
  | driveMode
  | slideState
  | shutterState
  | postState
  | claim
  | callEscalated
  | callExpired
  | storeMode
  | alarmInput
  | fireZone
  | fault
  | claimForced
deriving DecidableEq, Repr, Inhabited

def conditionCode : Condition → Nat
  | .portChange => 1
  | .gateEffective => 2
  | .chainFreshness => 3
  | .driveMode => 4
  | .slideState => 5
  | .shutterState => 6
  | .postState => 7
  | .claim => 8
  | .callEscalated => 9
  | .callExpired => 10
  | .storeMode => 11
  | .alarmInput => 12
  | .fireZone => 13
  | .fault => 14
  | .claimForced => 15

/-- The bit of the falling-edge set that holds a condition (12.5); the other conditions have no falling edge (R184). -/
def fallingBit : Condition → Nat
  | .gateEffective => 0
  | .alarmInput => 1
  | .fireZone => 2
  | _ => 7

/-- Whether a subscriber place is to be told of a condition (R184). -/
def Place.wants (pl : Place) (c : Condition) (falling : Bool) : Bool :=
  pl.station ≠ 0 && bitOf pl.conditions (conditionCode c - 1) && (!falling || bitOf pl.falling (fallingBit c))

/-- The payload of a Notice (12.4). -/
def noticePayload (c : Condition) (falling : Bool) (seq cycle : Nat) (details : List Byte) : List Byte :=
  byteOf ((if falling then 128 else 0) + conditionCode c) :: byteOf seq :: (pairOf cycle ++ details)

/-- One Notice built for a station with a sequence number, offered to the Agent Port once, or dropped and counted (R184). A slot freed in the
same command is open to it before the frames that waited (DESIGN CHOICE, log 74). -/
def Part.sendNotice (p : Part) (st : Station) (seq : Nat) (c : Condition) (falling : Bool) (details : List Byte) : Part :=
  let f := builtFrame p.own st .signal kindNotice false false (noticePayload c falling seq p.cycle details)
  if p.agentRoom .signal then (p.agentAccept f .part).1
  else { p with notices := { p.notices with lost := bump16 p.notices.lost } }

/-- The notice sequence of a place, taken and increased (R184). -/
def Part.stepSequence (p : Part) (i : Nat) : Part :=
  { p with notices := { p.notices with sequences := modifyAt p.notices.sequences i fun n => (n + 1) % 256 } }

/-- The Notice of a raised condition for place `i`, where the place's sets hold it (R184). It carries the place's notice sequence as it was
before the increase made for it, so that the first one after power-up carries 0 (DESIGN CHOICE, log 68). -/
def Part.noticeTo (p : Part) (c : Condition) (falling : Bool) (details : List Byte) (i : Nat) : Part :=
  let pl := p.place i
  if pl.wants c falling then
    (p.sendNotice pl.station (p.notices.sequences.getD (i - 1) 0) c falling details).stepSequence i
  else p

/-- A condition raised, on its rising or falling edge, with the details its rule names (R184). -/
def Part.raiseEdge (p : Part) (c : Condition) (falling : Bool) (details : List Byte) : Part :=
  placeNumbers.foldl (fun p i => p.noticeTo c falling details i) p

/-- A condition raised on its rising edge. -/
def Part.raise (p : Part) (c : Condition) (details : List Byte) : Part := p.raiseEdge c false details

/-! ## The fault record (R185) -/

/-- A fault in the record: it becomes the first fault, or is counted. -/
def FaultRecord.enter (r : FaultRecord) (e : FaultEntry) : FaultRecord :=
  match r.first with
  | none => { r with first := some e }
  | some _ => { r with further := bump8 r.further }

/-- A fault entered by a block, with the current cycle number; the fault condition is raised either way. -/
def Part.fault (p : Part) (code : FaultCode) (st : Station) : Part :=
  let p' := { p with faults := p.faults.enter { code, cycle := p.cycle, station := st } }
  p'.raise .fault (byteOf (faultNumber code) :: (pairOf p.cycle ++ [byteOf st]))

/-! ## Pending orders (R57, R58) -/

/-- An order placed on a record: it replaces the record's pending order and stands last in the order of placing. -/
def Part.placeOrder (p : Part) (r : RecordId) (o : Order) (c : Cls) (target : Station) : Part :=
  { p with orders := p.orders.filter (fun x => x.record ≠ r) ++
      [{ record := r, target, order := o, cls := c, placed := p.cycle }] }

/-- The pending order of a record removed, with no result (R58). -/
def Part.removeOrder (p : Part) (r : RecordId) : Part := { p with orders := p.orders.filter fun x => x.record ≠ r }

/-- The pending order of a record. -/
def Part.pendingOrder (p : Part) (r : RecordId) : Option PendingOrder := p.orders.find? fun x => x.record = r

/-! ## Channels -/

/-- Channel `c`, 1 to 12. -/
def Part.channel (p : Part) (c : Nat) : Channel := if c = 0 then {} else p.channels.getD (c - 1) {}

def Part.modChannel (p : Part) (c : Nat) (f : Channel → Channel) : Part :=
  { p with channels := modifyAt p.channels c f }

/-- The channel numbers 1 to 12. -/
def channelNumbers : List Nat := (List.range 12).map (· + 1)

/-- A channel in the state Sending, Awaiting or Halting (R59). -/
def Channel.busy (c : Channel) : Bool := c.state ≠ .idle

/-- A channel in flight with an order for a record, whether or not the owner still wants its result. -/
def Channel.holds (c : Channel) (r : RecordId) : Bool := c.busy && c.record = r

/-- The channels in flight with an order for a record, in rising order. -/
def Part.channelsOf (p : Part) (r : RecordId) : List Nat := channelNumbers.filter fun c => (p.channel c).holds r

/-- The channel that holds an order for a record whose result the owner still wants. R68 does not say whether a pre-emption's halt
request (R149) also reaches an order whose result is to be discarded: it does not (DESIGN CHOICE, log 41). -/
def Part.channelFor (p : Part) (r : RecordId) : Option Nat :=
  channelNumbers.find? fun c => (p.channel c).holds r && !(p.channel c).deaf

/-- The results of a record's orders in channels are to be discarded on arrival (R116, R127, R138, R140). -/
def Part.deafen (p : Part) (r : RecordId) : Part :=
  { p with channels := p.channels.map fun c => if c.holds r then { c with deaf := true } else c }

/-- A channel back in Idle with its result, which is kept for reading (R70). R62 clears transmitted at the next grant and no rule says
what it and the timer read until then, or what target, class, toggle and tries left read: clear and 0, and the last values (DESIGN CHOICE,
log 40). -/
def Channel.finish (c : Channel) (r : OrderResult) : Channel :=
  { c with state := .idle, transmitted := false, timer := 0, retryDue := false, stage := .none, result := some r }

/-! ## What goes onto the lines -/

/-- A frame put on a segment by the part. -/
def Part.transmit (p : Part) (q : PortId) (f : Frame) : Part := { p with sent := p.sent ++ [(q, f)] }

end Sys2Proof.Machine
end

