-- ==== Sys2Proof/Machine/ParkMath.lean ====
section
/-! DEFINITION. The Park Computer's arithmetic (chapter 6): clearance, arc starts, stopping distance, the feasible arc of a set,
the choice of a run, travel and target, plan answers and the feasibility record. All on integers, as R100 to R112 state. -/

namespace Sys2Proof.Machine

/-- ceil(a ÷ b) for a positive b (00, Integer arithmetic). -/
def ceilDiv (a b : Nat) : Nat := (a + b - 1) / b

/-- v ÷ 50 rounded half up (R77, R78). -/
def perCycle (v : Nat) : Nat := (v + 25) / 50

/-- a mod b, never negative for a positive b (00, Integer arithmetic). -/
def modulo (a : Int) (b : Nat) : Nat := (a % (b : Int)).toNat

/-! ## Clearance (R100, R101) -/

/-- A plane of chain coordinate `c` is clear at chain position `x`: B + M ≤ d ≤ P − M for d = (c − x) mod P (R100). -/
def clearAt (cp : ChainParams) (c x : Nat) : Bool :=
  let d := modulo ((c : Int) - x) cp.pitch
  cp.body + cp.margin ≤ d && d + cp.margin ≤ cp.pitch

/-- The arc start of a plane, (c − P + M) mod P (R101). -/
def arcStart (cp : ChainParams) (c : Nat) : Nat := modulo ((c : Int) - cp.pitch + cp.margin) cp.pitch

/-- The clearance test of a plane at a position, with the tables in force (R100): not clear for every plane while no Chain
Parameters table has been committed. -/
def Part.planeClear (p : Part) (k x : Nat) : Bool :=
  match p.chainParams with
  | none => false
  | some cp => clearAt cp (p.plane k).coordinate x

/-- The clearance test asked at the chain record's position: not clear while the record is Unknown (R100). -/
def Part.planeClearHere (p : Part) (k : Nat) : Bool :=
  p.chain.record.freshness ≠ .unknown && p.planeClear k p.chain.record.x

/-! ## Stopping distance (R102) -/

/-- D for a speed u: ceil(u² ÷ 2A) + ceil(u ÷ 25). -/
def stoppingDistance (decel u : Nat) : Nat := ceilDiv (u * u) (2 * decel) + ceilDiv u 25

/-! ## The feasible arc of a set (R103) -/

/-- A number put into a rising list. -/
def insertRising (n : Nat) : List Nat → List Nat
  | [] => [n]
  | m :: rest => if n ≤ m then n :: m :: rest else m :: insertRising n rest

/-- A list in rising order, equal members kept. -/
def sortRising : List Nat → List Nat
  | [] => []
  | n :: rest => insertRising n (sortRising rest)

/-- A gap between neighbouring arc starts: its length, its following point and the point before it (R103). -/
structure Gap where
  length    : Nat
  following : Nat
  before    : Nat
deriving DecidableEq, Repr, Inhabited

/-- The gaps between successive members of a rising list. -/
def innerGaps : List Nat → List Gap
  | a :: b :: rest => { length := b - a, following := b, before := a } :: innerGaps (b :: rest)
  | _ => []

/-- The larger gap; of two equally large, the one whose following point is smaller (R103). -/
def widerGap (g h : Gap) : Gap :=
  if g.length < h.length ∨ (g.length = h.length ∧ h.following < g.following) then h else g

/-- The arc start, the arc end and the span of a non-empty set of arc starts on a circle of circumference P (R103). -/
def setArc (pitch : Nat) (starts : List Nat) : Nat × Nat × Nat :=
  let ps := sortRising starts
  let first := ps.headD 0
  let last := ps.getLastD 0
  let g := (innerGaps ps).foldl widerGap { length := first + pitch - last, following := first, before := last }
  (g.following, g.before, modulo ((g.before : Int) - g.following) pitch)

/-- The target phase of a feasible set: (a_e + floor((W − span) ÷ 2)) mod P (R103). -/
def targetPhase (pitch : Nat) (width : Int) (arcEnd span : Nat) : Nat :=
  modulo ((arcEnd : Int) + (width - span) / 2) pitch

/-! ## Runs of a set that cannot be closed together (R105) -/

/-- The run of plane `q`: the planes of the set whose arc start lies at most W forward of q's. -/
def runOf (pitch : Nat) (width : Int) (start : Nat → Nat) (set : List Nat) (q : Nat) : List Nat :=
  set.filter fun j => (modulo ((start j : Int) - start q) pitch : Int) ≤ width

/-- Whether the second run is chosen over the first: more planes, then the lower lowest plane, then the smaller start value
(R105). A run is paired with its start value. -/
def betterRun (r s : List Nat × Nat) : Bool :=
  r.1.length < s.1.length ||
  (r.1.length = s.1.length &&
    (s.1.headD 0 < r.1.headD 0 || (s.1.headD 0 = r.1.headD 0 && s.2 < r.2)))

/-- The chosen run of a set (R105). -/
def chosenRun (pitch : Nat) (width : Int) (start : Nat → Nat) (set : List Nat) : List Nat :=
  let runs := set.map fun q => (runOf pitch width start set q, start q)
  (runs.foldl (fun best r => if betterRun best r then r else best) ([], 0)).1

/-- The closable set of a non-empty set: the whole set when its span is at most W, else the chosen run (R103, R105). -/
def closableOf (pitch : Nat) (width : Int) (start : Nat → Nat) (set : List Nat) : List Nat :=
  if ((setArc pitch (set.map start)).2.2 : Int) ≤ width then set else chosenRun pitch width start set

/-! ## Plans (R104, R107) -/

/-- The arc start of plane `k` as kept since the last commit, 0 where the plane has none. -/
def Part.arcStartOf (p : Part) (k : Nat) : Nat := (recordAt p.park.arcStarts k).getD 0

/-- The answer to a plan request (R107), with the tables in force: empty set, closable set, already clear, target. -/
def Part.planAnswer (p : Part) (r : PlanRequest) : PlanAnswer :=
  let cp := p.chainParams.getD default
  let d := stoppingDistance cp.decel r.speed
  if r.parkSet.isEmpty then
    { outcome := .target ((r.x + d) % cp.loop) d, stopping := d, closable := [], arc := none, unclosable := [] }
  else
    let closable := closableOf cp.pitch cp.width p.arcStartOf r.parkSet
    let unclosable := r.parkSet.filter fun k => !closable.contains k
    let (arcFrom, arcTo, span) := setArc cp.pitch (closable.map p.arcStartOf)
    let phase := targetPhase cp.pitch cp.width arcTo span
    let travel := d + modulo ((phase : Int) - (r.x + d)) cp.pitch
    let outcome :=
      if r.v = 0 ∧ closable.all (fun k => p.planeClear k r.x) then PlanOutcome.clear
      else PlanOutcome.target ((r.x + travel) % cp.loop) travel
    { outcome, stopping := d, closable, arc := some (arcFrom, arcTo, span, phase), unclosable }

/-! ## Commit computations (R101, R111, R112) -/

/-- The checks of R111 on a Chain Parameters table and a Plane Table as they would stand: n divides L, P within 1,500 to 4,000, W
at least 20, and every plane in use has c below L. -/
def chainChecks (cp : ChainParams) (planes : Table) : Bool :=
  cp.cabins ≠ 0 && cp.loop % cp.cabins = 0 && 1500 ≤ cp.pitch && cp.pitch ≤ 4000 && 20 ≤ cp.width &&
  planeNumbers.all fun k =>
    let e := planeEntryOf planes k
    !e.inUse || e.coordinate < cp.loop

/-- The checks of R111 on a Plane Table, with or without Chain Parameters in force. -/
def planeChecks (cp : Option ChainParams) (planes : Table) : Bool :=
  planeNumbers.all fun k =>
    let e := planeEntryOf planes k
    !e.inUse ||
      match cp with
      | some c => e.coordinate < c.loop
      | none => e.coordinate ≤ 131070

/-- The arc starts and the feasibility record computed afresh from the tables in force (R101, R112). -/
def Part.refreshPark (p : Part) : Part :=
  match p.chainParams with
  | none => { p with park := { p.park with arcStarts := List.replicate 16 none, feasibility := .notKnown } }
  | some cp =>
    let starts := planeNumbers.map fun k =>
      if (p.plane k).inUse then some (arcStart cp (p.plane k).coordinate) else none
    let p := { p with park := { p.park with arcStarts := starts } }
    let set := p.enabledPlanes
    let feasibility :=
      if !p.isCommitted tPlanes then Feasibility.notKnown
      else if set.isEmpty then .yesEmpty
      else
        let (arcFrom, arcTo, span) := setArc cp.pitch (set.map p.arcStartOf)
        if (span : Int) ≤ cp.width then
          .yes arcTo (modulo ((arcFrom : Int) + cp.width) cp.pitch) (targetPhase cp.pitch cp.width arcTo span)
        else .no (chosenRun cp.pitch cp.width p.arcStartOf set)
    { p with park := { p.park with feasibility } }

end Sys2Proof.Machine
end

