-- ==== Sys2Proof/Machine/Closing.lean ====
section
/-! DEFINITION. Access to the slide records, the conditions for a Slide Close and the tests that place or remove one (R118, R122,
R123), and the staged permit, which the slides decide with the chain (R94, R95). -/

namespace Sys2Proof.Machine

/-! ## Slide records -/

/-- The slide record of plane `k`. -/
def Part.slide (p : Part) (k : Nat) : Option SlideRecord := recordAt p.slides k

def Part.modSlide (p : Part) (k : Nat) (f : SlideRecord → SlideRecord) : Part :=
  { p with slides := modifyAt p.slides k (Option.map f) }

/-- Whether plane `k` has a record in the state Open. -/
def Part.slideOpen (p : Part) (k : Nat) : Bool := (p.slide k).any fun r => r.state = .opened

/-- Every enabled plane's slide record is Open (R81, R88, R94). -/
def Part.allSlidesOpen (p : Part) : Bool := p.enabledPlanes.all p.slideOpen

/-- The record of the two whose move was placed later. -/
def laterMove (a b : Option SlideRecord) : Option SlideRecord :=
  match a, b with
  | some r, some s => if r.moveAt < s.moveAt then some s else some r
  | some r, none => some r
  | none, b => b

/-- The station's ordered move: the move ordered most recently placed on any record of the station (R118). -/
def Part.stationMove (p : Part) (st : Station) : Option SlideMove :=
  let moving := (p.planesAt st).map fun k => (p.slide k).filter fun r => r.move.isSome
  (moving.foldl laterMove none).bind fun r => r.move

/-- A slide order placed on plane `k` (R122, R125): class Safety, the plane's station as target; the record's move ordered
becomes the order's and is the latest of all moves placed. -/
def Part.orderSlide (p : Part) (k : Nat) (m : SlideMove) : Part :=
  let o := match m with
    | .close => Order.slideClose
    | .openMove => Order.slideOpen
  let p := p.placeOrder (.slide k) o .safety (p.plane k).station
  let p := { p with moves := p.moves + 1 }
  p.modSlide k fun r => { r with move := some m, moveAt := p.moves }

/-! ## Closing conditions (R122, R123) -/

/-- The planes of the park set that are not marked unclosable (R83). -/
def Part.closable (p : Part) : List Nat := p.chain.parkSet.filter fun k => !p.chain.unclosable.contains k

/-- The plane and every other plane in use that names its station are clear at the record's position (R122). -/
def Part.stationClear (p : Part) (k : Nat) : Bool :=
  p.planeClearHere k && (p.planesAt (p.plane k).station).all p.planeClearHere

/-- The conditions that a pending Close needs for as long as it is pending (R122): Parked, Fresh, in the closable set, clear. These are the
causes R122 lists; that the Close stays pending when its record becomes Jammed or Lost, or the station's ordered move Open, is a DESIGN
CHOICE (log 63). -/
def Part.closeStands (p : Part) (k : Nat) : Bool :=
  p.chain.mode = .parked && p.chain.record.freshness = .fresh && p.closable.contains k && p.stationClear k

/-- The conditions for placing a Slide Close on plane `k`: those of R122, and the plane enabled, since a disabled plane is not ordered
(R114, R123). -/
def Part.closeReady (p : Part) (k : Nat) : Bool :=
  (p.plane k).enabled && p.closeStands k && (p.slide k).any (fun r => r.state = .opened && r.move = none) &&
  p.stationMove (p.plane k).station ≠ some .openMove

/-- Plane `k`, enabled, stands in the closable set of a Parked, Fresh chain while another plane of its station is not clear (R114,
R123). R123 names no freshness: that it is not found withheld on a record other than Fresh is a DESIGN CHOICE (log 52). -/
def Part.isWithheld (p : Part) (k : Nat) : Bool :=
  (p.plane k).enabled && p.chain.mode = .parked && p.chain.record.freshness = .fresh && p.closable.contains k &&
  (p.planesAt (p.plane k).station).any fun j => j ≠ k && !p.planeClearHere j

/-- The test of R122 for one plane: a Close placed when it passes; a plane found withheld for the first time marked, with its
fault (R123). -/
def Part.closeTest (p : Part) (k : Nat) : Part :=
  if p.closeReady k then p.orderSlide k .close
  else if p.isWithheld k && !p.withheld.contains k then
    { p with withheld := p.withheld ++ [k] }.fault .slideWithheld (p.plane k).station
  else p

/-- The test of R122 for every plane of the closable set, in rising order. -/
def Part.closeTests (p : Part) : Part := p.closable.foldl Part.closeTest p

/-- A pending Slide Close of plane `k`. -/
def PendingOrder.closes (k : Nat) (o : PendingOrder) : Bool := o.record = .slide k && o.order = .slideClose

/-- Plane `k`'s pending Close removed, with its move ordered, when a condition it needs has ceased to hold (R122). -/
def Part.recheckClose (p : Part) (k : Nat) : Part :=
  if p.orders.any (PendingOrder.closes k) && !p.closeStands k then
    ({ p with orders := p.orders.filter fun o => !o.closes k }).modSlide k fun r =>
      if r.move = some SlideMove.close then { r with move := none } else r
  else p

/-- Every pending Close tested against the conditions it needs (R122). -/
def Part.recheckCloses (p : Part) : Part := planeNumbers.foldl Part.recheckClose p

/-! ## The staged permit (R94, R95) -/

/-- The stage and target the drive mode gives (R94). -/
def Part.modeStage (p : Part) : Stage × Option Nat :=
  match p.chain.mode with
  | .halted => (.none, none)
  | .parked => (.none, none)
  | .tripped => (.none, none)
  | .running => (.run, none)
  | .lastCall => (.run, none)
  | .stopping =>
    match p.chain.plan with
    | some pl => (pl.stage, some pl.target)
    | none => (p.chain.stopStage, none)

/-- Whether the permit may be other than None: every enabled slide Open and the record Fresh or Extrapolated (R94). -/
def Part.permitLaw (p : Part) : Bool :=
  p.allSlidesOpen && (p.chain.record.freshness = .fresh || p.chain.record.freshness = .extrapolated)

/-- The permit by R94. -/
def Part.permitNow (p : Part) : Permit :=
  if p.permitLaw then { stage := p.modeStage.1, target := p.modeStage.2, mode := p.chain.mode }
  else { stage := .none, target := none, mode := p.chain.mode }

/-- The staged permit recomputed (R95). -/
def Part.restage (p : Part) : Part := { p with chain := { p.chain with staged := p.permitNow } }

end Sys2Proof.Machine
end

