-- ==== Sys2Proof/Machine/Chain.lean ====
section
/-! DEFINITION. The Chain Supervisor (chapter 5): drive modes and what each change brings, the park set, plans, the chain record
with its trips and extrapolation, the boarding lamps and the permit unit. -/

namespace Sys2Proof.Machine

/-- A fault of the Chain Supervisor, which names the drive station (R78, R79, R86, R89, R93), or station 0 where the Roles table names
none (DESIGN CHOICE, log 43). -/
def Part.chainFault (p : Part) (c : FaultCode) : Part := p.fault c (p.driveStation.getD 0)

/-! ## Boarding lamps (R92, R93) -/

/-- The lamp state a drive mode requires, none for Parked (R92). -/
def lampFor : DriveMode → Option Bool
  | .running => some true
  | .lastCall => some false
  | .stopping => some false
  | .halted => some false
  | .tripped => some false
  | .parked => none

/-- The lamp order of a change of drive mode: placed when the state required differs from the one last ordered, unless the
Roles table names no drive station (R92). -/
def Part.orderLamps (p : Part) (m : DriveMode) : Part :=
  match lampFor m, p.driveStation with
  | some on, some st =>
    if p.chain.lamp = some on then p
    else
      let p := p.placeOrder .lamp (if on then .lampsOn else .lampsOff) .drive st
      { p with chain := { p.chain with lamp := some on } }
  | _, _ => p

/-- The result of a lamp order (R93). -/
def Part.lampResult (p : Part) (r : OrderResult) : Part :=
  let p := { p with chain := { p.chain with lampResult := some r } }
  match r with
  | .refused | .rejected | .noReply | .unroutable =>
    { p with chain := { p.chain with lamp := none } }.chainFault .lampOrderFailed
  | .done | .halted | .haltedAccepted => p

/-! ## Changes of drive mode (R80) -/

/-- A change of drive mode: what the mode left behind is discarded (R83, R89, R90, R108), the condition is raised, a lamp order
may be placed, the permit is staged afresh. The callers set beforehand what the new mode starts with. The re-plan count keeps the last
stop's value until the next stop (DESIGN CHOICE, log 49). -/
def Part.setDriveMode (p : Part) (m : DriveMode) : Part :=
  if p.chain.mode = m then p
  else
    let old := p.chain.mode
    let stays := m = .stopping || m = .parked
    let c := p.chain
    let p := { p with
      chain := { c with
        mode := m
        clearing := if m = DriveMode.lastCall then c.clearing else 0
        plan := none
        replans := if m = DriveMode.stopping then 0 else c.replans
        parkSet := if stays then c.parkSet else []
        unclosable := if stays then c.unclosable else []
        armed := c.armed && m ≠ DriveMode.tripped }
      park := { p.park with inProgress := none }
      withheld := if stays then p.withheld else [] }
    let p := p.raise .driveMode [byteOf (driveModeCode old), byteOf (driveModeCode m)]
    (p.orderLamps m).restage

/-- The chain trips, unless it is Tripped already (R78, R79, R90). -/
def Part.trip (p : Part) : Part := p.setDriveMode .tripped

/-! ## Plan requests (R84, R107, R108) -/

/-- A plan asked of the Park Computer for the park set from the record's x and v; a plan in progress is superseded. -/
def Part.requestPlan (p : Part) (stage : Stage) : Part :=
  let cp := p.chainParams.getD default
  let r := p.chain.record
  let n := (p.park.lastRequest + 1) % 65536
  let speed := if stage = .run then r.v else cp.creep
  { p with park := { p.park with
      lastRequest := n
      inProgress := some { number := n, parkSet := p.chain.parkSet, x := r.x, v := r.v, stage, speed } } }

/-- Stopping entered with a park set, and the first plan asked at a stage (R84). -/
def Part.enterStopping (p : Part) (set : List Nat) (stage : Stage) : Part :=
  let p := { p with chain := { p.chain with parkSet := set, unclosable := [], stopStage := stage } }
  (p.setDriveMode .stopping).requestPlan stage

/-- Parked entered with the park set as it stands; every plane of the closable set is tested for closing (R86, R122). -/
def Part.enterParked (p : Part) : Part := (p.setDriveMode .parked).closeTests

/-! ## The wanted park set and the tests on it (R83 to R88) -/

/-- The wanted park set (R83). -/
def Part.wantedSet (p : Part) : List Nat :=
  match p.day.mode with
  | .closed => p.enabledPlanes.filter fun k => (p.plane k).night
  | .night => p.enabledPlanes.filter fun k => (p.plane k).night
  | .evacuation => p.enabledPlanes
  | .unloaded => []
  | .trading => []
  | .warning => []
  | .lastCall => []

/-- The Halted test (R84): a wanted set, a Fresh record and speed 0 take a Halted chain to Parked or to Stopping at creep. -/
def Part.haltedTest (p : Part) : Part :=
  let w := p.wantedSet
  if p.chain.mode = .halted && !w.isEmpty && p.chain.record.freshness = .fresh && p.chain.record.v = 0 then
    if w.all p.planeClearHere then
      { p with chain := { p.chain with parkSet := w, unclosable := [] } }.enterParked
    else p.enterStopping w .creep
  else p

/-- The start conditions (R81). -/
def Part.startConditions (p : Part) : Bool :=
  p.allSlidesOpen && p.chain.record.freshness = .fresh && (p.day.mode = .trading || p.day.mode = .warning)

/-- The start-armed test (R81): in Halted with the flag set and the conditions holding, the chain runs and the flag is cleared. -/
def Part.armedTest (p : Part) : Part :=
  if p.chain.armed && p.chain.mode = .halted && p.startConditions then
    ({ p with chain := { p.chain with armed := false } }).setDriveMode .running
  else p

/-- Halted entered: the Halted test is made (R84). -/
def Part.enterHalted (p : Part) : Part := (p.setDriveMode .halted).haltedTest

/-- The test for leaving Parked (R88): the wanted set empty and every enabled slide Open. -/
def Part.parkedTest (p : Part) : Part :=
  if p.chain.mode = .parked && p.wantedSet.isEmpty && p.allSlidesOpen then p.enterHalted else p

/-- The tests made at each change of a slide record or of the wanted set: leaving Parked (R88), then the armed start (R81). -/
def Part.slideTests (p : Part) : Part := p.parkedTest.armedTest

/-- The planes of one set or the other, in rising order. -/
def unionOf (a b : List Nat) : List Nat := planeNumbers.filter fun k => a.contains k || b.contains k

/-- Whether every plane of the first set is in the second. -/
def within (a b : List Nat) : Bool := a.all b.contains

/-- The wanted set grows while Parked (R88, R110): the park set becomes the union, each added plane is tested at the record's x,
and one not clear is marked unclosable, with its fault (R106). The marks of the old park set stay. -/
def Part.growParked (p : Part) (w : List Nat) : Part :=
  let added := w.filter fun k => !p.chain.parkSet.contains k
  let blocked := added.filter fun k => !p.planeClearHere k
  let p := { p with chain := { p.chain with
      parkSet := unionOf p.chain.parkSet w
      unclosable := unionOf (p.chain.unclosable.filter p.chain.parkSet.contains) blocked } }
  (blocked.foldl (fun p k => p.fault .planeUnclosable (p.plane k).station) p).closeTests

/-- The wanted set changes while Stopping (R87): a subset keeps the plan, anything else asks a plan at once, at the stage of the
current plan, from the record's x and v. -/
def Part.followWanted (p : Part) (w : List Nat) : Part :=
  let p' := { p with chain := { p.chain with
      parkSet := w, unclosable := p.chain.unclosable.filter fun k => w.contains k } }
  if within w p.chain.parkSet then p'
  else p'.requestPlan (match p.chain.plan with
    | some pl => pl.stage
    | none => p.chain.stopStage)

/-- What a change of the wanted park set brings (R83, R84, R87, R88), given the set before it. -/
def Part.wantedChanged (p : Part) (old : List Nat) : Part :=
  let w := p.wantedSet
  if w = old then p
  else
    match p.chain.mode with
    | .stopping => p.followWanted w
    | .parked => (if within w p.chain.parkSet then p else p.growParked w).parkedTest
    | .halted => p.haltedTest
    | .running => p
    | .lastCall => p
    | .tripped => p

/-- What a change of store mode brings to the chain (R81, R82, R84, R87, R88), given the wanted set before it. -/
def Part.chainOnStoreMode (p : Part) (old : List Nat) : Part :=
  let trading := p.day.mode = .trading || p.day.mode = .warning
  let p := { p with chain := { p.chain with armed := p.chain.armed && trading } }
  let p :=
    match p.chain.mode with
    | .running =>
      if trading || p.day.mode = StoreMode.unloaded then p
      else
        let clearing := (p.chainParams.getD default).clearing * 50
        { p with chain := { p.chain with clearing } }.setDriveMode .lastCall
    | .lastCall => if trading then p.setDriveMode .running else p
    | .halted => p
    | .stopping => p
    | .parked => p
    | .tripped => p
  ((p.wantedChanged old).haltedTest).armedTest

/-! ## Plan answers (R85, R106, R107) -/

/-- The unclosable marks of an answer, in the park set as it stands (R83, R106): a plane that has left the park set since the request is
not marked. Planes not marked before enter their fault in rising plane number. -/
def Part.markUnclosable (p : Part) (answered : List Nat) : Part :=
  let ks := answered.filter p.chain.parkSet.contains
  let fresh := ks.filter fun k => !p.chain.unclosable.contains k
  let p := { p with chain := { p.chain with unclosable := ks } }
  fresh.foldl (fun p k => p.fault .planeUnclosable (p.plane k).station) p

/-- The plan in progress completes (R107, R108): its answer is kept, its marks are made, and it is adopted or leads to Parked. -/
def Part.completePlan (p : Part) : Part :=
  match p.park.inProgress with
  | none => p
  | some r =>
    let a := p.planAnswer r
    let p := { p with park := { p.park with inProgress := none, lastAnswer := some (r, a) } }
    if p.chain.mode = .stopping && r.number = p.park.lastRequest then
      let p := p.markUnclosable a.unclosable
      match a.outcome with
      | .clear => p.enterParked
      | .target position travel =>
        { p with chain := { p.chain with
            plan := some { stage := r.stage, target := position, travel, moved := false } } }.restage
    else p

/-! ## The chain record (R75 to R79) -/

/-- The record's freshness set; every change raises the condition (R75). -/
def Part.setFreshness (p : Part) (f : Freshness) : Part :=
  if p.chain.record.freshness = f then p
  else
    let p := { p with chain := { p.chain with record := { p.chain.record with freshness := f } } }
    p.raise .chainFreshness []

/-- The trip causes of R78 and R79 in a Chain Position report, in the order in which their faults are entered. -/
def tripCauses (cp : ChainParams) (jump : Bool) (speed : Nat) (ds : DriveState) (edge parked : Bool) : List FaultCode :=
  (if jump then [FaultCode.positionJump] else []) ++
  (if 5 * cp.runLimit < 4 * speed then [.overspeed] else []) ++
  (if ds = .fault then [.driveFault] else []) ++
  (if edge then [.landingEdgeTrip] else []) ++
  (if parked && 0 < speed then [.movedWhileParked] else [])

/-- The forward difference of a report, (reported − x) mod L (R78). -/
def forwardDifference (cp : ChainParams) (x reported : Nat) : Nat := modulo ((reported : Int) - x) cp.loop

/-- The arrival test has called for a re-plan (R86): the fourth trips the chain, the others ask a plan at creep. -/
def Part.replan (p : Part) : Part :=
  if 3 ≤ p.chain.replans then p.trip.chainFault .parkMissed
  else ({ p with chain := { p.chain with replans := p.chain.replans + 1 } }).requestPlan .creep

/-- The arrival test of a report taken in Stopping (R86, R109). The plan's `moved` says whether a report with speed above 0 had
been taken since its adoption, before this one. -/
def Part.arrivalTest (p : Part) (cp : ChainParams) : Part :=
  let v := p.chain.record.v
  if p.chain.parkSet.isEmpty && v = 0 then p.enterHalted
  else
    match p.chain.plan with
    | none => p
    | some pl =>
      let t : Int := cp.stopTol
      if v = 0 && -t ≤ pl.travel && pl.travel ≤ t && p.closable.all (fun k => p.planeClear k p.chain.record.x) then p.enterParked
      else if (0 < v && pl.travel < -t) || (v = 0 && pl.moved) then p.replan
      else p

/-- The plan's travel to go reduced by a report's forward difference (R85). -/
def Part.advancePlan (p : Part) (f : Nat) : Part :=
  { p with chain := { p.chain with plan := p.chain.plan.map fun pl => { pl with travel := pl.travel - f } } }

/-- A report with speed above 0 noted in the plan (R86, step 3), after the report's own test. -/
def Part.noteMoved (p : Part) : Part :=
  if 0 < p.chain.record.v then
    { p with chain := { p.chain with plan := p.chain.plan.map fun pl => { pl with moved := true } } }
  else p

/-- What a Chain Position report brings after the record has taken it without a trip, by the drive mode (R81, R84, R86, R122). -/
def Part.reportTests (p : Part) (cp : ChainParams) : Part :=
  match p.chain.mode with
  | .stopping => (p.arrivalTest cp).noteMoved.armedTest
  | .halted => p.haltedTest.armedTest
  | .parked => p.closeTests
  | .running => p
  | .lastCall => p
  | .tripped => p

/-- The evaluation of the cycle's report (R98): complete now, or waiting for a plan the report asked. Of two reports in one periodic
part the last decides (DESIGN CHOICE, log 48). -/
def Part.closeEvaluation (p : Part) (asked : Nat) : Part :=
  match p.park.inProgress with
  | some r =>
    if r.number = asked then { p with chain := { p.chain with evaluated := true, evalPlan := none } }
    else { p with chain := { p.chain with evaluated := false, evalPlan := some r.number } }
  | none => { p with chain := { p.chain with evaluated := true, evalPlan := none } }

/-- A Chain Position report discarded as bad form; in the periodic part the discard completes the evaluation (R76, R98). -/
def Part.discardChainReport (p : Part) (q : PortId) : Part :=
  let p := p.count q .badForm
  if p.periodic then { p with chain := { p.chain with evaluated := true } } else p

/-- A Chain Position report taken by the Chain Supervisor (R76, R78, R79). -/
def Part.takeChainPosition (p : Part) (q : PortId) (pos speed : Nat) (ds : DriveState) (edge : Bool) : Part :=
  if !p.periodic then p.discardChainReport q
  else
    match p.chainParams with
    | none =>
      { p with chain := { p.chain with
          record := { p.chain.record with echo := some ds, edge, lastReport := p.cycle }
          reportTaken := true, evaluated := true, evalPlan := none } }
    | some cp =>
      if cp.loop ≤ pos then p.discardChainReport q
      else
        let old := p.chain.record
        let f := forwardDifference cp old.x pos
        let jump := (old.freshness = .fresh || old.freshness = .extrapolated) && perCycle old.v + cp.jumpTol < f
        let causes := tripCauses cp jump speed ds edge (p.chain.mode = .parked)
        let asked := p.park.lastRequest
        let p := p.advancePlan f
        let p := { p with chain := { p.chain with
            record := { p.chain.record with x := pos, v := speed, misses := 0, echo := some ds, edge, lastReport := p.cycle }
            reportTaken := true } }
        let p := p.setFreshness .fresh
        let p :=
          if p.chain.mode = .tripped then p
          else if causes.isEmpty then p.reportTests cp
          else causes.foldl Part.chainFault p.trip
        p.restage.closeEvaluation asked

/-- A trip cause that comes by a report of its own (R79): the chain trips and the fault is entered, unless it is Tripped. -/
def Part.tripBy (p : Part) (c : FaultCode) : Part :=
  if p.chain.mode = .tripped then p else p.trip.chainFault c

/-- A Drive State report taken (R79). -/
def Part.takeDriveState (p : Part) (ds : DriveState) : Part :=
  let p := { p with chain := { p.chain with record := { p.chain.record with echo := some ds } } }
  if ds = .fault then p.tripBy .driveFault else p

/-- A Landing Edge Trip report taken (R79). -/
def Part.takeLandingEdge (p : Part) : Part :=
  ({ p with chain := { p.chain with record := { p.chain.record with edge := true } } }).tripBy .landingEdgeTrip

/-- The record becomes Stale (R77, R89). -/
def Part.goStale (p : Part) : Part :=
  let p := { p with chain := { p.chain with record := { p.chain.record with misses := 3 } } }
  let p := p.setFreshness .stale
  match p.chain.mode with
  | .running => p.enterHalted.chainFault .chainReportLost
  | .lastCall => p.enterHalted.chainFault .chainReportLost
  | .stopping => p.enterHalted.chainFault .chainReportLost
  | .halted => p
  | .parked => p
  | .tripped => p

/-- The miss count and the extrapolation of an end-of-periodic mark without a report (R77, R85). -/
def Part.missReport (p : Part) : Part :=
  let r := p.chain.record
  if p.chain.reportTaken || (r.freshness ≠ .fresh && r.freshness ≠ .extrapolated) then p
  else if 2 ≤ r.misses then p.goStale
  else
    let l := (p.chainParams.getD default).loop
    let a := perCycle r.v
    let p := { p with chain := { p.chain with record := { r with misses := r.misses + 1, x := (r.x + a) % l } } }
    (p.advancePlan a).setFreshness .extrapolated

/-! ## The permit unit (R96 to R99) -/

/-- A Permit Answer sent straight onto the port of its Poll, unless that port has gone Off or Faulted (R3, R96); the two
counters count the Answers sent with their flags (R99). It goes to the Poll's source, also where a Roles commit has named another drive
station since (DESIGN CHOICE, log 57). -/
def Part.sendAnswer (p : Part) (w : WaitingPoll) (stage : Stage) (target : Option Nat) (late overrun : Bool) : Part :=
  if (p.port w.port).state.live then
    let f := builtFrame p.own w.source .drive kindAnswer false false
      (answerPayload w.cycle stage target p.chain.staged.mode late overrun)
    let p := p.transmit w.port f
    { p with chain := { p.chain with
        lateAnswers := if late then bump16 p.chain.lateAnswers else p.chain.lateAnswers
        pollOverruns := if overrun then bump16 p.chain.pollOverruns else p.chain.pollOverruns } }
  else p

/-- A Poll answered from the staged permit. -/
def Part.answerPoll (p : Part) (w : WaitingPoll) (late : Bool) : Part :=
  p.sendAnswer w p.chain.staged.stage p.chain.staged.target late false

/-- A waiting Poll dropped unanswered, when the port on which it was received goes Off or Faulted (R3, R96). -/
def Part.dropPoll (p : Part) (q : PortId) : Part :=
  { p with chain := { p.chain with waitingPoll := p.chain.waitingPoll.filter fun w => w.port ≠ q } }

/-- The waiting Poll, if any, answered from the staged permit. -/
def Part.answerWaiting (p : Part) (late : Bool) : Part :=
  match p.chain.waitingPoll with
  | some w => ({ p with chain := { p.chain with waitingPoll := none } }).answerPoll w late
  | none => p

/-- A Poll taken (R3, R97, R98, R99). One taken in Immediate mode while a Poll taken under Held still waits is refused with overrun, as in
Held mode: R99's first sentence against its third (DESIGN CHOICE, log 42). -/
def Part.takePoll (p : Part) (q : PortId) (src : Station) (cycle : Nat) : Part :=
  let w : WaitingPoll := { port := q, source := src, cycle }
  if p.driveStation ≠ some src || !p.periodic then p.count q .badForm
  else if p.chain.waitingPoll.isSome then p.sendAnswer w .none none false true
  else if !p.heldMode || p.chain.evaluated then p.answerPoll w false
  else { p with chain := { p.chain with waitingPoll := some w } }

/-- The end of the evaluation in Held mode (R98): when the plan it waits for is no longer in progress, adopted or abandoned or
superseded (log 19), it is complete; and a waiting Poll whose report is evaluated is answered. -/
def Part.settleEvaluation (p : Part) : Part :=
  let waits := p.chain.evalPlan.isSome && (p.park.inProgress.map fun r => r.number) = p.chain.evalPlan
  let p := if p.chain.evalPlan.isSome && !waits then
      { p with chain := { p.chain with evalPlan := none, evaluated := true } } else p
  if p.chain.evaluated then p.answerWaiting false else p

/-! ## Management orders to the chain -/

/-- A Start order (R81). -/
def Part.takeStart (p : Part) : Part × ManageResult :=
  match p.chain.mode with
  | .halted => if p.startConditions then (p.setDriveMode .running, .done) else (p, .refusedState)
  | .running => (p, .done)
  | .lastCall => (p, .refusedState)
  | .stopping => (p, .refusedState)
  | .parked => (p, .refusedState)
  | .tripped => (p, .refusedState)

/-- A Stop order (R91). -/
def Part.takeStop (p : Part) : Part × ManageResult :=
  let p := { p with chain := { p.chain with armed := false } }
  match p.chain.mode with
  | .running => (p.enterStopping [] .run, .done)
  | .lastCall => (p.enterStopping p.wantedSet .run, .done)
  | .stopping => (p, .done)
  | .halted => (p, .done)
  | .parked => (p, .done)
  | .tripped => (p, .done)

/-- A Clear Trip order (R90). -/
def Part.takeClearTrip (p : Part) : Part × ManageResult :=
  let r := p.chain.record
  if p.chain.mode = .tripped && r.freshness = .fresh && r.v = 0 && r.echo ≠ some .fault && !r.edge then
    (p.enterHalted.armedTest, .done)
  else (p, .refusedState)

/-- The clearing timer expires (R84): Stopping for the wanted park set, first plan at stage Run. -/
def Part.clearingExpires (p : Part) : Part := p.enterStopping p.wantedSet .run

end Sys2Proof.Machine
end

