-- ==== Sys2Proof/Machine/Slides.lean ====
section
/-! DEFINITION. The well slides (R116 to R125): reports, unordered moves, time-outs, silence, order results, opening the well, and
what a commit of the Plane Table does to the records. -/

namespace Sys2Proof.Machine

/-- The details of a slide state notice: plane, floor, shaft, old state, new state (R117). -/
def Part.slideDetails (p : Part) (k : Nat) (old new : SlideState) : List Byte :=
  let e := p.plane k
  [byteOf k, byteOf e.floor, flagByte e.down, byteOf (slideStateCode old), byteOf (slideStateCode new)]

/-- The condition raised where plane `k`'s record has changed state (R117). -/
def Part.raiseSlide (p : Part) (k : Nat) (old new : SlideState) : Part :=
  if old = new then p else p.raise .slideState (p.slideDetails k old new)

/-- A slide fault, which names the plane's station and is entered for an enabled plane only (R114, R118, R120, R124). -/
def Part.slideFault (p : Part) (k : Nat) (c : FaultCode) : Part :=
  if (p.plane k).enabled then p.fault c (p.plane k).station else p

/-- One record changed: the condition raised on a change of state, and for an enabled plane the permit staged afresh and the
chain's tests made (R95, R117). -/
def Part.changeSlide (p : Part) (k : Nat) (f : SlideRecord → SlideRecord) : Part :=
  match p.slide k with
  | none => p
  | some r =>
    let p := p.modSlide k f
    if (f r).state = r.state then p
    else
      let p := p.raiseSlide k r.state (f r).state
      if (p.plane k).enabled then p.restage.slideTests else p

/-! ## Reports (R118, R119) -/

/-- A record after a report, by the station's ordered move (R118), with whether the report is an unordered move (R119). A travel timer that
is stopped is 0 (DESIGN CHOICE, log 70). -/
def slideReport (ordered : Option SlideMove) (pos : SlidePos) (travel : Nat) (r : SlideRecord) : SlideRecord × Bool :=
  let r := { r with last := some pos, silence := 0 }
  match pos, ordered with
  | .opened, some .close => (r, false)
  | .opened, some .openMove => ({ r with state := .opened, move := none, timer := 0 }, false)
  | .opened, none => ({ r with state := .opened, timer := 0 }, r.state = .closed)
  | .closed, some .close => ({ r with state := .closed, move := none, timer := 0 }, false)
  | .closed, some .openMove => (r, false)
  | .closed, none => ({ r with state := .closed, timer := 0 }, r.state = .opened)
  | .between, some .close => (if r.state = .opened then { r with state := .closing, timer := travel * 50 } else r, false)
  | .between, some .openMove => (if r.state = .closed then { r with state := .opening, timer := travel * 50 } else r, false)
  | .between, none =>
    match r.state with
    | .lost => ({ r with state := .unknown }, false)
    | .opened => ({ r with state := .unknown }, true)
    | .closed => ({ r with state := .unknown }, true)
    | .unknown => (r, false)
    | .closing => (r, false)
    | .opening => (r, false)
    | .jammed => (r, false)
  | .fault, some _ => ({ r with state := .jammed, move := none, timer := 0 }, false)
  | .fault, none => ({ r with state := .jammed, timer := 0 }, false)

/-- What a report changed at one plane. -/
structure SlideChange where
  plane     : Nat
  old       : SlideState
  new       : SlideState
  unordered : Bool
deriving DecidableEq, Repr, Inhabited

/-- The change a report makes to plane `k`, none where it has no record. -/
def Part.slideChange (p : Part) (ordered : Option SlideMove) (pos : SlidePos) (k : Nat) : Option SlideChange :=
  (p.slide k).map fun r =>
    let (r', u) := slideReport ordered pos (p.plane k).travel r
    { plane := k, old := r.state, new := r'.state, unordered := u }

/-- A Slide Position report applied to every record of its station at once, then its faults and conditions, the trip of an
unordered move, and the tests that follow a change of a slide record (R117 to R119). A Fault report that jams several enabled planes
of the station enters fault "slide fault" once for each: R118 does not say (DESIGN CHOICE, log 44). -/
def Part.takeSlidePosition (p : Part) (st : Station) (pos : SlidePos) : Part :=
  let planes := p.planesAt st
  let ordered := p.stationMove st
  let changes := planes.filterMap (p.slideChange ordered pos)
  let p := planes.foldl (fun p k => p.modSlide k fun r => (slideReport ordered pos (p.plane k).travel r).1) p
  let p := changes.foldl (fun p c => p.raiseSlide c.plane c.old c.new) p
  let p := changes.foldl (fun p c =>
    if pos = .fault && c.old ≠ .jammed then p.slideFault c.plane .slideFault else p) p
  let p :=
    if changes.any (fun c => c.unordered) && planes.any (fun k => (p.plane k).enabled) then
      (p.fault .slideMovedUnordered st).trip
    else p
  let p := if changes.any (fun c => c.old ≠ c.new && (p.plane c.plane).enabled) then p.restage.slideTests else p
  if changes.any (fun c => c.old ≠ c.new && c.new = .opened) then p.closeTests else p

/-- A Presence report from a slide station (R118). -/
def Part.slidePresence (p : Part) (st : Station) : Part :=
  (p.planesAt st).foldl (fun p k => p.modSlide k fun r => { r with silence := 0 }) p

/-! ## Time-out and silence (R120, R121) -/

/-- The move of plane `k` times out (R120); its stopped timer is 0 (DESIGN CHOICE, log 70). -/
def Part.slideTimesOut (p : Part) (k : Nat) : Part :=
  (p.changeSlide k fun r => { r with state := .jammed, move := none, timer := 0 }).slideFault k .slideJammed

/-- Whether another enabled plane of plane `k`'s station has been silent for 50 cycles already, so that the fault has been entered
for the station (R121, log 27). -/
def Part.stationLostAlready (p : Part) (k : Nat) : Bool :=
  (p.planesAt (p.plane k).station).any fun j =>
    j ≠ k && (p.plane j).enabled && (p.slide j).any fun r => r.silence = 50

/-- Plane `k`'s silence count reaches 50 (R121); its stopped timer is 0 (DESIGN CHOICE, log 70). -/
def Part.slideGoesLost (p : Part) (k : Nat) : Part :=
  let told := p.stationLostAlready k
  let p := p.changeSlide k fun r => { r with state := .lost, move := none, timer := 0, silence := 50 }
  if told then p else p.slideFault k .slideStationLost

/-- Whether a slide record is in a timed move. -/
def SlideRecord.moving (r : SlideRecord) : Bool := r.state = .closing || r.state = .opening

/-- Plane `k`'s travel timer at a cycle start (R120). -/
def Part.slideTimerTick (p : Part) (k : Nat) : Part :=
  match p.slide k with
  | some r =>
    if r.moving then
      if r.timer ≤ 1 then p.slideTimesOut k else p.modSlide k fun r => { r with timer := r.timer - 1 }
    else p
  | none => p

/-- Plane `k`'s silence count at a cycle start (R121). A record that an order result takes out of Lost keeps its count at 50 and is not
made Lost again before a report (DESIGN CHOICE, log 51). -/
def Part.slideSilenceTick (p : Part) (k : Nat) : Part :=
  match p.slide k with
  | some r =>
    if 50 ≤ r.silence then p
    else if r.silence = 49 then p.slideGoesLost k
    else p.modSlide k fun r => { r with silence := r.silence + 1 }
  | none => p

/-- A cycle start for every slide record. -/
def Part.slidesTick (p : Part) : Part :=
  planeNumbers.foldl Part.slideSilenceTick (planeNumbers.foldl Part.slideTimerTick p)

/-! ## Order results (R124) -/

/-- The move a slide order stands for. -/
def slideMoveOf : Order → Option SlideMove
  | .slideClose => some .close
  | .slideOpen => some .openMove
  | _ => none

/-- The state a confirmed slide order brings. -/
def SlideMove.under : SlideMove → SlideState
  | .close => .closing
  | .openMove => .opening

/-- The fault of an order that failed (R124, R130, R145), none for the other results. -/
def orderFault : OrderResult → Option FaultCode
  | .rejected => some .orderRejected
  | .refused => some .orderRefused
  | .noReply => some .noReply
  | .unroutable => some .unroutable
  | .done => none
  | .halted => none
  | .haltedAccepted => none

/-- The result of a slide order on plane `k`, acted on while the record's move ordered is the order's own (R124): while it is of the order's
kind, a later order's included (DESIGN CHOICE, log 71). The timer stopped on Jammed is 0 (DESIGN CHOICE, log 70). -/
def Part.slideResult (p : Part) (k : Nat) (o : Order) (res : OrderResult) : Part :=
  match p.slide k, slideMoveOf o with
  | some r, some m =>
    if r.move = some m then
      match orderFault res with
      | some c => (p.changeSlide k fun r => { r with state := .jammed, move := none, timer := 0 }).slideFault k c
      | none =>
        if res = .done && r.state ≠ m.under then
          let travel := (p.plane k).travel * 50
          p.changeSlide k fun r => { r with state := m.under, timer := travel }
        else p
    else p
  | _, _ => p

/-! ## Opening the well (R125) -/

/-- The Slide Open of plane `k`, where its record is other than Open and its move ordered is not Open. -/
def Part.openSlide (p : Part) (k : Nat) : Part :=
  match p.slide k with
  | some r => if r.state ≠ .opened && r.move ≠ some .openMove then p.orderSlide k .openMove else p
  | none => p

/-- The well opened: a Slide Open for every enabled plane that needs one. -/
def Part.openWell (p : Part) : Part := p.enabledPlanes.foldl Part.openSlide p

/-- An Open Slides order (R125). -/
def Part.takeOpenSlides (p : Part) : Part × ManageResult :=
  match p.day.mode with
  | .unloaded => (p.openWell, .done)
  | .trading => (p.openWell, .done)
  | .warning => (p.openWell, .done)
  | .lastCall => (p.openWell, .done)
  | .closed => (p, .refusedState)
  | .night => (p, .refusedState)
  | .evacuation => (p, .refusedState)

/-! ## A commit of the Plane Table (R116) -/

/-- The record of plane `k` set anew, its pending order removed and the result of an order in a channel to be discarded. -/
def Part.renewSlide (p : Part) (k : Nat) (r : Option SlideRecord) : Part :=
  let old := p.slide k
  let p := { p with slides := modifyAt p.slides k fun _ => r }
  let p := (p.removeOrder (.slide k)).deafen (.slide k)
  match old, r with
  | some a, some b => p.raiseSlide k a.state b.state
  | _, _ => p

/-- Plane `k`'s pending order removed with its move ordered, as R122 removes a Close; R116 does not say it of an Open (DEDUCED, log 24). -/
def Part.dropSlideOrder (p : Part) (k : Nat) : Part :=
  if (p.pendingOrder (.slide k)).isSome then
    (p.removeOrder (.slide k)).modSlide k fun r => { r with move := none }
  else p

/-- What the commit does to plane `k`, given the entry before it (R116). -/
def Part.planeCommitted (old : Table) (p : Part) (k : Nat) : Part :=
  let a := planeEntryOf old k
  let b := p.plane k
  if !b.inUse then (if a.inUse then p.renewSlide k none else p)
  else if a.station ≠ b.station then p.renewSlide k (some {})
  else if a.enabled && !b.enabled then p.dropSlideOrder k
  else p

/-- What a successful commit of the Plane Table brings, given the table before it: records, arc starts, feasibility, withheld
marks, the permit, the wanted park set, and the tests that the start and the leaving of Parked make on the enabled slides (R81, R88,
R95, R116). A wanted park set that grows in Parked is followed by R88 and R110, marks and faults included, although R111 says that a commit
changes no unclosable mark and R112 that it enters no fault (DESIGN CHOICE, log 69). -/
def Part.planesCommitted (p : Part) (old : Table) (wanted : List Nat) : Part :=
  let p := planeNumbers.foldl (Part.planeCommitted old) p
  let p := { p.refreshPark with withheld := [] }
  (p.restage.wantedChanged wanted).slideTests

end Sys2Proof.Machine
end

