-- ==== Sys2Proof/Machine/Shutters.lean ====
section
/-! DEFINITION. The floor shutters and the lowering sequences (R127 to R134): records, reports, order results, groups and their
settling, the escape hold, Drop Now. Raising (R135) stands in Raising.lean, since it halts orders in channels. -/

namespace Sys2Proof.Machine

/-! ## Records and sequences -/

/-- The floor shutter record of entry `k`. -/
def Part.shutterRec (p : Part) (k : Nat) : Option ShutterRecord := recordAt p.shutters k

def Part.modShutter (p : Part) (k : Nat) (f : ShutterRecord → ShutterRecord) : Part :=
  { p with shutters := modifyAt p.shutters k (Option.map f) }

/-- The lowering sequence of compartment `c`. -/
def Part.seq (p : Part) (c : Nat) : LoweringSequence := if c = 0 then {} else p.sequences.getD (c - 1) {}

def Part.modSeq (p : Part) (c : Nat) (f : LoweringSequence → LoweringSequence) : Part :=
  { p with sequences := modifyAt p.sequences c f }

/-- The compartments 1 to 8. -/
def compartments : List Nat := (List.range 8).map (· + 1)

/-- The order groups 1 to 6. -/
def groupNumbers : List Nat := [1, 2, 3, 4, 5, 6]

/-- The shutters of group `g` of compartment `c`. -/
def Part.groupOf (p : Part) (c g : Nat) : List Nat := (p.shuttersOf c).filter fun k => (p.shutter k).group = g

/-- The non-empty groups of a compartment, lowest first. -/
def Part.groupsOf (p : Part) (c : Nat) : List Nat := groupNumbers.filter fun g => !(p.groupOf c g).isEmpty

/-- The states in which a shutter counts for the settling of its group (R132). -/
def ShutterState.settled : ShutterState → Bool
  | .paused => true
  | .lowered => true
  | .jammed => true
  | .lost => true
  | .unknown => false
  | .opened => false
  | .lowering => false
  | .raising => false

/-- The states in which a sequence under a set dropped flag is done with a shutter (R134). -/
def ShutterState.dropDone (s : ShutterState) : Bool := s = .lowered || s = .jammed || s = .lost

/-- The state of entry `k`'s record, Unknown where it has none. -/
def Part.shutterState (p : Part) (k : Nat) : ShutterState := ((p.shutterRec k).map fun r => r.state).getD .unknown

/-- Group `g` of compartment `c` is settled (R132). -/
def Part.groupSettled (p : Part) (c g : Nat) : Bool := (p.groupOf c g).all fun k => (p.shutterState k).settled

/-! ## Orders (R132) -/

/-- The order of a shutter move. -/
def ShutterMove.order : ShutterMove → Order
  | .toPause => .shutterToPause
  | .full => .shutterFull
  | .raise => .shutterRaise

/-- A shutter order placed on entry `k`, class Safety; the record's move ordered becomes the order's (R58, R60). -/
def Part.orderShutter (p : Part) (k : Nat) (m : ShutterMove) : Part :=
  (p.placeOrder (.shutter k) m.order .safety (p.shutter k).station).modShutter k fun r => { r with move := some m }

/-- A shutter given a Lower order: a pending order of another kind is replaced, one of the same kind stands (R132). -/
def Part.giveShutter (p : Part) (k : Nat) (m : ShutterMove) : Part :=
  if (p.pendingOrder (.shutter k)).any fun o => o.order = m.order then
    p.modShutter k fun r => { r with move := some m }
  else p.orderShutter k m

/-- Whether a state is the end state of a move (R130, R132). -/
def ShutterMove.atEnd (m : ShutterMove) (s : ShutterState) : Bool :=
  match m with
  | .toPause => s = .paused || s = .lowered
  | .full => s = .lowered
  | .raise => s = .opened

/-- The Lower order a sequence gives entry `k` (R132). -/
def Part.lowerKind (p : Part) (s : LoweringSequence) (k : Nat) : ShutterMove :=
  if (p.shutter k).escape && s.cause = some .evacuation && s.timer ≠ 0 && !s.dropped then .toPause else .full

/-- Whether a sequence selects entry `k`: night-flagged shutters for the cause Night, every shutter otherwise (R131). -/
def Part.selected (p : Part) (s : LoweringSequence) (k : Nat) : Bool := s.cause ≠ some .night || (p.shutter k).night

/-- The pending Lower order of entry `k` removed, with its move ordered (R131, R135; log 24). -/
def Part.dropLower (p : Part) (k : Nat) : Part :=
  match p.pendingOrder (.shutter k) with
  | some o =>
    if o.order = .shutterToPause || o.order = .shutterFull then
      (p.removeOrder (.shutter k)).modShutter k fun r => { r with move := none }
    else p
  | none => p

/-- Entry `k` when its group is reached: given its Lower order, or passed over (R131, R132). -/
def Part.lowerOne (p : Part) (s : LoweringSequence) (k : Nat) : Part :=
  if !p.selected s k then p
  else
    let m := p.lowerKind s k
    let st := p.shutterState k
    if m.atEnd st || st = .jammed || st = .lost then p.dropLower k else p.giveShutter k m

/-- The Lower orders of a sequence's current group placed (R132). -/
def Part.placeGroup (p : Part) (c : Nat) : Part :=
  let s := p.seq c
  (p.groupOf c s.group).foldl (fun p k => p.lowerOne s k) p

/-- The group after the current one: the next non-empty, or for the cause Night the next that holds a night-flagged shutter
(R132). -/
def Part.nextGroup (p : Part) (c : Nat) : Option Nat :=
  let s := p.seq c
  (p.groupsOf c).find? fun g => s.group < g && (s.cause ≠ some .night || (p.groupOf c g).any fun k => (p.shutter k).night)

/-- A sequence moves on for as long as its group is settled (R132), or is Complete under a set dropped flag when every shutter is
Lowered, Jammed or Lost (R134). At most six groups, so seven rounds. -/
def Part.advanceSeq (p : Part) (c : Nat) : Nat → Part
  | 0 => p
  | fuel + 1 =>
    let s := p.seq c
    if s.state ≠ .sequencing then p
    else if s.dropped then
      if (p.shuttersOf c).all fun k => (p.shutterState k).dropDone then
        p.modSeq c fun s => { s with state := .complete }
      else p
    else if p.groupSettled c s.group then
      match p.nextGroup c with
      | none => p.modSeq c fun s => { s with state := .complete }
      | some g => ((p.modSeq c fun s => { s with group := g }).placeGroup c).advanceSeq c fuel
    else p

/-- The sequence of a compartment tested after a change (R132, R134). -/
def Part.stepSeq (p : Part) (c : Nat) : Part := p.advanceSeq c 7

/-- A sequence put in place of the one that was there, in Sequencing at the lowest non-empty group, its first orders placed; a
compartment with no shutter goes to Complete at once (R131), with group 0 (DESIGN CHOICE, log 45). -/
def Part.startSeq (p : Part) (c : Nat) (cause : SequenceCause) : Part :=
  let evac := cause = .evacuation
  let s : LoweringSequence :=
    { state := .sequencing, cause := some cause, group := (p.groupsOf c).headD 0
      since := if evac then p.cycle else 0
      timer := if evac then escapeHoldOf (p.table tShutters) * 50 else 0 }
  if (p.shuttersOf c).isEmpty then p.modSeq c fun _ => { s with state := .complete }
  else ((p.modSeq c fun _ => s).placeGroup c).stepSeq c

/-! ## Changes of a record -/

/-- A shutter fault, which names the station (R129, R130). -/
def Part.shutterFault (p : Part) (k : Nat) (c : FaultCode) : Part := p.fault c (p.shutter k).station

/-- The details of a shutter state notice: entry, compartment, old state, new state (R129). -/
def Part.shutterDetails (p : Part) (k : Nat) (old new : ShutterState) : List Byte :=
  [byteOf k, byteOf (p.shutter k).compartment, byteOf (shutterStateCode old), byteOf (shutterStateCode new)]

/-- A Lower Full given again to a shutter that became Paused or Jammed under a set dropped flag, when its record next becomes Paused
or Open with no move ordered: once for each time it so became (R134). -/
def Part.dropAgain (p : Part) (k : Nat) : Part :=
  if (p.seq (p.shutter k).compartment).dropped then
    let st := p.shutterState k
    let p := if st = .paused || st = .jammed then p.modShutter k fun r => { r with owed := true } else p
    if (p.shutterRec k).any fun r => r.owed && r.move = none && (r.state = .paused || r.state = .opened) then
      (p.modShutter k fun r => { r with owed := false }).orderShutter k .full
    else p
  else p

/-- One record changed: on a change of state the condition is raised and the compartment's sequence is told (R129, R132). "Becomes" in
R134 is a change of state: a Jammed shutter whose Lower Full fails is not owed it again (DEDUCED, log 23). -/
def Part.changeShutter (p : Part) (k : Nat) (f : ShutterRecord → ShutterRecord) : Part :=
  match p.shutterRec k with
  | none => p
  | some r =>
    let p := p.modShutter k f
    if (f r).state = r.state then p
    else ((p.raise .shutterState (p.shutterDetails k r.state (f r).state)).dropAgain k).stepSeq (p.shutter k).compartment

/-! ## Reports (R129) -/

/-- A floor shutter record after a report, by its own move ordered (R129). A travel timer that is stopped is 0 (DESIGN CHOICE, log 70). -/
def shutterReport (pos : ShutterPos) (travel : Nat) (r : ShutterRecord) : ShutterRecord :=
  let r := { r with last := some pos, silence := 0 }
  let ends (s : ShutterState) : ShutterRecord := { r with state := s, move := none, timer := 0 }
  match pos, r.move with
  | .opened, some .toPause => r
  | .opened, some .full => r
  | .opened, some .raise => ends .opened
  | .opened, none => ends .opened
  | .atPause, some .toPause => ends .paused
  | .atPause, some .full => r
  | .atPause, some .raise => r
  | .atPause, none => ends .paused
  | .lowered, some .toPause => ends .lowered
  | .lowered, some .full => ends .lowered
  | .lowered, some .raise => r
  | .lowered, none => ends .lowered
  | .between, some .raise =>
    if r.state = .paused || r.state = .lowered || r.state = .unknown then
      { r with state := .raising, timer := travel * 50 } else r
  | .between, some _ =>
    if r.state = .opened || r.state = .paused || r.state = .unknown then
      { r with state := .lowering, timer := travel * 50 } else r
  | .between, none => if r.state = .jammed then r else ends .unknown
  | .fault, _ => ends .jammed

/-- The entry in use that names a station (R127 lets no two name one). -/
def Part.shutterAt (p : Part) (st : Station) : Option Nat :=
  shutterNumbers.find? fun k => (p.shutter k).inUse && (p.shutter k).station = st

/-- A Shutter Position report taken by the Shutter Sequencer (R129). -/
def Part.takeShutterPosition (p : Part) (st : Station) (pos : ShutterPos) : Part :=
  match p.shutterAt st with
  | none => p
  | some k =>
    let old := p.shutterState k
    let travel := (p.shutter k).travel
    let p := p.changeShutter k (shutterReport pos travel)
    if pos = .fault && old ≠ .jammed then p.shutterFault k .shutterFault else p

/-- A Presence report from a floor shutter station (R129). -/
def Part.shutterPresence (p : Part) (st : Station) : Part :=
  match p.shutterAt st with
  | none => p
  | some k => p.modShutter k fun r => { r with silence := 0 }

/-! ## Time-out, silence, results (R130) -/

/-- The move of entry `k` times out; its stopped timer is 0 (DESIGN CHOICE, log 70). -/
def Part.shutterTimesOut (p : Part) (k : Nat) : Part :=
  (p.changeShutter k fun r => { r with state := .jammed, move := none, timer := 0 }).shutterFault k .shutterJammed

/-- Entry `k`'s silence count reaches 50; its stopped timer is 0 (DESIGN CHOICE, log 70). -/
def Part.shutterGoesLost (p : Part) (k : Nat) : Part :=
  (p.changeShutter k fun r => { r with state := .lost, move := none, timer := 0, silence := 50 }).shutterFault k .shutterStationLost

/-- Whether a floor shutter record is in a timed move. -/
def ShutterRecord.moving (r : ShutterRecord) : Bool := r.state = .lowering || r.state = .raising

/-- Entry `k`'s travel timer at a cycle start. -/
def Part.shutterTimerTick (p : Part) (k : Nat) : Part :=
  match p.shutterRec k with
  | some r =>
    if r.moving then
      if r.timer ≤ 1 then p.shutterTimesOut k else p.modShutter k fun r => { r with timer := r.timer - 1 }
    else p
  | none => p

/-- Entry `k`'s silence count at a cycle start; one that an order result takes out of Lost keeps its count at 50 (DESIGN CHOICE, log
51). -/
def Part.shutterSilenceTick (p : Part) (k : Nat) : Part :=
  match p.shutterRec k with
  | some r =>
    if 50 ≤ r.silence then p
    else if r.silence = 49 then p.shutterGoesLost k
    else p.modShutter k fun r => { r with silence := r.silence + 1 }
  | none => p

/-- A cycle start for every floor shutter record. -/
def Part.shuttersTick (p : Part) : Part :=
  shutterNumbers.foldl Part.shutterSilenceTick (shutterNumbers.foldl Part.shutterTimerTick p)

/-- The move a shutter order stands for. -/
def shutterMoveOf : Order → Option ShutterMove
  | .shutterToPause => some .toPause
  | .shutterFull => some .full
  | .shutterRaise => some .raise
  | _ => none

/-- The state a confirmed shutter order brings (R130). -/
def ShutterMove.under : ShutterMove → ShutterState
  | .toPause => .lowering
  | .full => .lowering
  | .raise => .raising

/-- The result Done or HaltedAccepted of a shutter order on entry `k` (R130): a record at the order's end state is kept and the order's
own move cleared. -/
def Part.shutterAccepted (p : Part) (k : Nat) (m : ShutterMove) (r : ShutterRecord) : Part :=
  if m.atEnd r.state then p.modShutter k fun r => if r.move = some m then { r with move := none } else r
  else if r.state = m.under then p
  else
    let travel := (p.shutter k).travel * 50
    p.changeShutter k fun r => { r with state := m.under, timer := travel }

/-- The Raise that follows a HaltedAccepted Lower order on entry `k` (R135): a pending order of the shutter, the Raise placed with the
halt or a later one, stands (log 22). -/
def Part.raiseAfter (p : Part) (k : Nat) : Part :=
  if (p.pendingOrder (.shutter k)).isSome then p else p.orderShutter k .raise

/-- The result of a shutter order on entry `k`, acted on while the record's move ordered is the order's own (R130): while it is of the
order's kind, a later order's included (DESIGN CHOICE, log 71). The timer stopped on Jammed is 0 (DESIGN CHOICE, log 70). A HaltedAccepted
Lower is acted on whatever the move ordered is by then: the shutter is Lowering and its Raise follows, since the part halts Lower
orders only to raise (R135, log 22). -/
def Part.shutterResult (p : Part) (k : Nat) (o : Order) (res : OrderResult) : Part :=
  match p.shutterRec k, shutterMoveOf o with
  | some r, some m =>
    if res = .haltedAccepted && m ≠ .raise then (p.shutterAccepted k m r).raiseAfter k
    else if r.move = some m then
      match orderFault res with
      | some c => (p.changeShutter k fun r => { r with state := .jammed, move := none, timer := 0 }).shutterFault k c
      | none => if res = .halted then p.modShutter k fun r => { r with move := none } else p.shutterAccepted k m r
    else p
  | _, _ => p

/-! ## The escape hold (R133) and Drop Now (R134) -/

/-- The escape hold of compartment `c` expires: its escape shutters of groups reached that still stand are given Lower Full. -/
def Part.escapeExpires (p : Part) (c : Nat) : Part :=
  let p := p.modSeq c fun s => { s with timer := 0 }
  let s := p.seq c
  let ks := (p.shuttersOf c).filter fun k =>
    (p.shutter k).escape && (p.shutter k).group ≤ s.group && !(p.shutterState k).dropDone
  ks.foldl (fun p k => p.giveShutter k .full) p

/-- Compartment `c`'s escape hold timer at a cycle start (R133). -/
def Part.escapeTick (p : Part) (c : Nat) : Part :=
  let s := p.seq c
  if s.timer = 0 then p
  else if s.timer = 1 then p.escapeExpires c
  else p.modSeq c fun s => { s with timer := s.timer - 1 }

/-- A cycle start for every escape hold timer. -/
def Part.escapesTick (p : Part) : Part := compartments.foldl Part.escapeTick p

/-- Drop Now in compartment `c` (R134). What a shutter is owed since an earlier Drop Now lasts while the dropped flag stays set. Whether
every shutter is Lowered, Jammed or Lost is tested at their changes of state, not here; a sequence that starts in a compartment with no
shutter is Complete at once (R131), with group 0 (DESIGN CHOICE, log 45). -/
def Part.dropCompartment (p : Part) (c : Nat) : Part :=
  let ks := p.shuttersOf c
  let p := if (p.seq c).dropped then p else ks.foldl (fun p k => p.modShutter k fun r => { r with owed := false }) p
  let last := (p.groupsOf c).getLastD 0
  let p := p.modSeq c fun s =>
    if s.cause = some .evacuation then
      { s with dropped := true, group := if s.state = .sequencing then last else s.group }
    else { state := if ks.isEmpty then .complete else .sequencing, cause := some .drop, group := last, dropped := true }
  (ks.filter fun k => p.shutterState k ≠ .lowered).foldl (fun p k => p.orderShutter k .full) p

/-- A Drop Now handed to the Shutter Sequencer with its compartment mask (R134): ignored in Unloaded. -/
def Part.dropNow (p : Part) (mask : Nat) : Part :=
  if p.day.mode = .unloaded then p else (inMask 8 mask).foldl Part.dropCompartment p

/-- The night shutters lowered (R131): every compartment with a night-flagged shutter whose sequence is Idle, or Complete with
cause Night. -/
def Part.lowerNight (p : Part) : Part :=
  let cs := compartments.filter fun c =>
    (p.shuttersOf c).any (fun k => (p.shutter k).night) &&
    ((p.seq c).state = .idle || ((p.seq c).state = .complete && (p.seq c).cause = some .night))
  cs.foldl (fun p c => p.startSeq c .night) p

/-! ## A commit of the Floor Shutter Table (R127) -/

/-- What the commit does to entry `k`, given the entry before it. A record created Unknown in place of one in another state raises the
shutter state condition (DESIGN CHOICE, log 67). -/
def Part.shutterCommitted (old : Table) (p : Part) (k : Nat) : Part :=
  let a := shutterEntryOf old k
  let b := p.shutter k
  if a.station = b.station then p
  else
    let was := p.shutterRec k
    let now : Option ShutterRecord := if b.inUse then some {} else none
    let p := { p with shutters := modifyAt p.shutters k fun _ => now }
    let p := (p.removeOrder (.shutter k)).deafen (.shutter k)
    match was, now with
    | some r, some s =>
      if r.state = s.state then p else p.raise .shutterState (p.shutterDetails k r.state s.state)
    | _, _ => p

/-- What a successful commit of the Floor Shutter Table brings, given the table before it (R127). A Complete sequence becomes Idle with
nothing kept (DESIGN CHOICE, log 45). -/
def Part.shuttersCommitted (p : Part) (old : Table) : Part :=
  let p := shutterNumbers.foldl (Part.shutterCommitted old) p
  { p with sequences := p.sequences.map fun s => if s.state = .complete then {} else s }

end Sys2Proof.Machine
end

