-- ==== Sys2Proof/Machine/Posts.lean ====
section
/-! DEFINITION. The signal posts (R139 to R148, R150): queues, outcomes, dispatch, play deadlines, reports, order results, silence.
What halts an order in a channel (handing in, pre-emption, commits) stands in PostQueue.lean. -/

namespace Sys2Proof.Machine

/-! ## Records -/

/-- The report on hand (R138): a report taken since the record was created, or since its station last changed, and a silence count
below 50. -/
def Post.onHand (r : Post) : Bool := r.heard && r.silence < 50

/-- The post record of post `k`. -/
def Part.post (p : Part) (k : Nat) : Option Post := recordAt p.posts k

def Part.modPost (p : Part) (k : Nat) (f : Post → Post) : Part :=
  { p with posts := modifyAt p.posts k (Option.map f) }

/-- The counters of post `k` (R139). -/
def Part.postCount (p : Part) (k : Nat) : PostCounters := if k = 0 then {} else p.postCounts.getD (k - 1) {}

def Part.modPostCount (p : Part) (k : Nat) (f : PostCounters → PostCounters) : Part :=
  { p with postCounts := modifyAt p.postCounts k f }

/-- The details of a post state notice: post, floor, old state, new state (R139). -/
def Part.postDetails (p : Part) (k : Nat) (old new : PostState) : List Byte :=
  [byteOf k, byteOf (p.postEntry k).floor, byteOf (postStateCode old), byteOf (postStateCode new)]

/-- A record put into a state; a change raises the condition (R139). -/
def Part.setPostState (p : Part) (k : Nat) (s : PostState) : Part :=
  match p.post k with
  | none => p
  | some r =>
    if r.state = s then p
    else (p.modPost k fun r => { r with state := s }).raise .postState (p.postDetails k r.state s)

/-- A post fault, which names the station (R140, R145, R147). -/
def Part.postFault (p : Part) (k : Nat) (c : FaultCode) : Part := p.fault c (p.postEntry k).station

/-! ## Items, priorities and outcomes (R141, R142) -/

/-- The rank of a source's priority: Evacuation 3, Closing 2, Staff 1, Test 0 (R141). -/
def ItemSource.rank : ItemSource → Nat
  | .stream => 3
  | .step _ => 2
  | .call _ => 1
  | .test => 0

def Item.rank (it : Item) : Nat := it.source.rank

/-- The class of an order for an item, or for the arrival of an item (R60). -/
def rankClass (rank : Nat) : Cls := if rank = 3 then .safety else .signal

/-- A call's outcome counts (R162). -/
def Call.tally (c : Call) (o : ItemOutcome) : Call :=
  if o = .completed then { c with completed := bump8 c.completed } else { c with lost := bump8 c.lost }

/-- A step record's outcome counts (R170). -/
def StepRecord.tally (r : StepRecord) (o : ItemOutcome) : StepRecord :=
  if o = .completed then { r with completed := bump8 r.completed } else { r with lost := bump8 r.lost }

/-- The stream's outcome counts (R176). -/
def Fire.tally (f : Fire) (o : ItemOutcome) : Fire :=
  if o = .completed then { f with streamCompleted := bump16 f.streamCompleted }
  else { f with streamLost := bump16 f.streamLost }

/-- The outcome of an item of post `k` handed to its source agent, or kept as the last test outcome (R142, R162, R170, R176). -/
def Part.giveOutcome (p : Part) (k : Nat) (src : ItemSource) (o : ItemOutcome) : Part :=
  match src with
  | .call id => { p with calls := p.calls.map fun c => if c.id = id then c.tally o else c }
  | .step n => { p with day := { p.day with steps := modifyAt p.day.steps n fun r => r.tally o } }
  | .stream => { p with fire := p.fire.tally o }
  | .test => p.modPost k fun r => { r with lastTest := some o }

/-- An item refused by post `k`: counted, with its outcome (R142). -/
def Part.refuseItem (p : Part) (k : Nat) (it : Item) : Part :=
  (p.modPostCount k fun c => { c with refused := bump16 c.refused }).giveOutcome k it.source .refused

/-- The tail of post `k`'s queue evicted: counted, with its outcome (R142). -/
def Part.evictItem (p : Part) (k : Nat) (it : Item) : Part :=
  (p.modPostCount k fun c => { c with evicted := bump16 c.evicted }).giveOutcome k it.source .evicted

/-- An item put behind every item of its own or a higher priority (R141). -/
def enterBehind (it : Item) (q : List Item) : List Item :=
  q.takeWhile (fun x => it.rank ≤ x.rank) ++ it :: q.dropWhile fun x => it.rank ≤ x.rank

/-- An item put at the front of its priority (R141). -/
def enterFront (it : Item) (q : List Item) : List Item :=
  q.takeWhile (fun x => it.rank < x.rank) ++ it :: q.dropWhile fun x => it.rank < x.rank

/-- The place of an item in a queue, new or returned. -/
def enterQueue (returned : Bool) (it : Item) (q : List Item) : List Item :=
  if returned then enterFront it q else enterBehind it q

/-- A waiting item with a new one merged into it (R142, step 2). -/
def Item.merge (waiting new : Item) : Item :=
  { waiting with content := new.content, repeats := max waiting.repeats new.repeats }

/-- A queue with an item merged into the waiting one of its source; a returned item moves it to the front of its priority. -/
def mergeInto (returned : Bool) (it : Item) (q : List Item) : List Item :=
  if returned then
    match q.find? fun x => x.source = it.source with
    | some w => enterFront (w.merge it) (q.filter fun x => x.source ≠ it.source)
    | none => q
  else q.map fun x => if x.source = it.source then x.merge it else x

/-- Steps 2 to 4 of R142 at post `k`: merged, entered, or refused. The second part says whether the item entered. -/
def Part.enterItem (p : Part) (k : Nat) (returned : Bool) (it : Item) : Part × Bool :=
  match p.post k with
  | none => (p, false)
  | some r =>
    let it := { it with enqueued := p.cycle }
    if r.queue.any fun x => x.source = it.source then
      (p.modPost k fun r => { r with queue := mergeInto returned it r.queue }, false)
    else if r.queue.length < 8 then
      (p.modPost k fun r => { r with queue := enterQueue returned it r.queue }, true)
    else
      match r.queue.getLast? with
      | some tail =>
        if tail.rank < it.rank then
          ((p.modPost k fun r => { r with queue := enterQueue returned it r.queue.dropLast }).evictItem k tail, true)
        else (p.refuseItem k it, false)
      | none => (p, false)

/-! ## Dispatch (R144) -/

/-- What an item's play is, looked up in the tables in force, with its order; none where its code or cue is not loaded. -/
def Part.lookUp (p : Part) (it : Item) : Option (Lookup × Order) :=
  match it.content with
  | .pattern code => (p.bell code).map fun e => (.pattern e.slots e.divider, .playPattern e.slots e.divider it.repeats)
  | .phrase cue => (p.phrase cue).map fun s => (.phrase s, .playPhrase cue it.repeats)

/-- Dispatch at post `k`: an Idle post without a current item takes its head and places the Play order; an item whose code or
cue is not loaded is discarded and the next head is tried. -/
def Part.dispatchLoop (p : Part) (k : Nat) : Nat → Part
  | 0 => p
  | fuel + 1 =>
    match p.post k with
    | none => p
    | some r =>
      if r.state = .idle && r.current.isNone then
        match r.queue with
        | [] => p
        | it :: rest =>
          match p.lookUp it with
          | some (l, o) =>
            (p.modPost k fun r =>
              { r with queue := rest, current := some it, phase := .pending, lookup := some l }).placeOrder
                (.post k) o (rankClass it.rank) (p.postEntry k).station
          | none => ((p.modPost k fun r => { r with queue := rest }).giveOutcome k it.source .discarded).dispatchLoop k fuel
      else p

/-- The test for dispatch (R144). A queue holds at most eight items. -/
def Part.dispatch (p : Part) (k : Nat) : Part := p.dispatchLoop k 9

/-! ## The play deadline (R146, R147) -/

/-- The eight slot codes of a pattern, slot 1 first: 0 Short, 1 Long, 2 Rest, 3 End (12.3, 12.6). -/
def patternSlots (s : BitVec 16) : List Nat := (List.range 8).map fun i => s.toNat / 4 ^ (7 - i) % 4

/-- The pattern units: slots before the first End, Long 4 units, Short and Rest 2 (R146). -/
def patternUnits (s : BitVec 16) : Nat :=
  ((patternSlots s).takeWhile fun c => c ≠ 3).foldl (fun n c => n + if c = 1 then 4 else 2) 0

/-- The cycles of one stroke unit (R146). -/
def unitCycles (divider : Nat) : Nat :=
  match divider with
  | 0 => 1
  | 1 => 2
  | 2 => 3
  | 3 => 4
  | 4 => 4
  | 5 => 4
  | 6 => 6
  | _ => 8

/-- The deadline of a Pattern item (R146). -/
def patternDeadline (s : BitVec 16) (divider r : Nat) : Nat :=
  (r * patternUnits s + (r - 1) * 6) * unitCycles divider + 10

/-- The deadline of a Phrase item (R147). -/
def phraseDeadline (seconds r : Nat) : Nat := (r * seconds + (r - 1)) * 50 + 10

/-- The deadline of what was looked up at dispatch. -/
def Lookup.deadline (l : Lookup) (r : Nat) : Nat :=
  match l with
  | .pattern s d => patternDeadline s d r
  | .phrase s => phraseDeadline s r

/-! ## Ends of the current item -/

/-- A record without a current item and without what belongs to it. A play deadline that does not run is 0 (DESIGN CHOICE, log 53). -/
def Post.clear (r : Post) : Post :=
  { r with current := none, phase := .none, preempt := false, deadline := 0, lookup := none }

/-- The current item leaves with an outcome. -/
def Part.endCurrent (p : Part) (k : Nat) (o : ItemOutcome) : Part :=
  match p.post k with
  | none => p
  | some r =>
    let p := p.modPost k Post.clear
    match r.current with
    | some it => p.giveOutcome k it.source o
    | none => p

/-- The call of an id stands in the Call Table. -/
def Part.callPresent (p : Part) (id : Nat) : Bool := p.calls.any fun c => c.id = id

/-- Whether an item may go back to its queue: a Staff item while its call is present, an Evacuation item while the stream runs
(R145, R150). -/
def Part.mayReturn (p : Part) (it : Item) : Bool :=
  match it.source with
  | .call id => p.callPresent id
  | .stream => p.fire.streamOn
  | .step _ => true
  | .test => true

/-- The current item taken from the record and returned to the queue with some repeats, or removed with no outcome when it may not
return (R142, R145, R149, R150). -/
def Part.returnCurrent (p : Part) (k : Nat) (repeats : Nat) : Part :=
  match p.post k with
  | none => p
  | some r =>
    let p := p.modPost k Post.clear
    match r.current with
    | some it => if p.mayReturn it then (p.enterItem k true { it with repeats }).1 else p
    | none => p

/-- The fate of an item halted with `c` repeats completed (R148, R150). In Playing an item with none remaining is Completed
(R148); in Halting R150's table is followed as written (log 25). -/
inductive HaltFate
  | outcome (o : ItemOutcome)
  | back (repeats : Nat)
deriving DecidableEq, Repr, Inhabited

def haltFate (lastStep : Option Nat) (playing : Bool) (it : Item) (c : Nat) : HaltFate :=
  let left := it.repeats - min c it.repeats
  if playing && left = 0 then .outcome .completed
  else
    match it.source with
    | .test => .outcome .discarded
    | .step n =>
      if lastStep ≠ some n then .outcome .discarded
      else if left = 0 then .outcome .completed
      else .back left
    | .call _ => if left = 0 then .outcome .completed else .back left
    | .stream => if left = 0 then .outcome .completed else .back left

/-- The play of post `k` ends as halted: the item meets its fate, the post becomes Idle and dispatches; a pending Halt Play is
removed (R148, R150). -/
def Part.endHalted (p : Part) (k c : Nat) : Part :=
  match p.post k with
  | none => p
  | some r =>
    let p := p.removeOrder (.post k)
    let p :=
      match r.current with
      | none => p
      | some it =>
        match haltFate p.day.lastStep (r.state = PostState.playing) it c with
        | .outcome o => p.endCurrent k o
        | .back left => p.returnCurrent k left
    ((p.modPost k Post.clear).setPostState k .idle).dispatch k

/-- The play of post `k` ends completed (R148, R150). -/
def Part.endCompleted (p : Part) (k : Nat) : Part :=
  (((p.removeOrder (.post k)).endCurrent k .completed).setPostState k .idle).dispatch k

/-! ## Reports (R140) -/

/-- The reports a signal post sends. -/
inductive PostReport
  | ready
  | presence
  | done
  | halted (completed : Nat)
deriving DecidableEq, Repr, Inhabited

/-- The entry in use that names a station (R137 lets no two name one). -/
def Part.postAt (p : Part) (st : Station) : Option Nat :=
  postNumbers.find? fun k => (p.postEntry k).inUse && (p.postEntry k).station = st

/-- A report from the station of post `k`, by the record's state (R140). -/
def Part.actPostReport (p : Part) (k : Nat) (s : PostState) (rep : PostReport) : Part :=
  match s with
  | .disabled => p
  | .unknown => (p.setPostState k .idle).dispatch k
  | .lost => (p.setPostState k .idle).dispatch k
  | .idle => p
  | .playing | .halting =>
    match rep with
    | .presence => p
    | .ready => p.endHalted k 0
    | .done => p.endCompleted k
    | .halted c => p.endHalted k c

/-- A Report taken from a signal post (R140). -/
def Part.takePostReport (p : Part) (st : Station) (rep : PostReport) : Part :=
  match p.postAt st with
  | none => p
  | some k =>
    match p.post k with
    | none => p
    | some r => (p.modPost k fun r => { r with silence := 0, heard := true }).actPostReport k r.state rep

/-! ## Silence and overrun -/

/-- Post `k` has lost its current item, its pending order and the interest in an order in a channel (R138, R140). -/
def Part.dropCurrent (p : Part) (k : Nat) : Part :=
  ((p.endCurrent k .discarded).removeOrder (.post k)).deafen (.post k)

/-- Post `k`'s silence count reaches 50, at which it has no report on hand (R138, R140). -/
def Part.postGoesLost (p : Part) (k : Nat) : Part :=
  match p.post k with
  | none => p
  | some r =>
    let p := p.modPost k fun r => { r with silence := 50 }
    if r.state = .disabled then p
    else ((p.dropCurrent k).setPostState k .lost).postFault k .postStationLost

/-- Post `k`'s silence count at a cycle start (R140). -/
def Part.postSilenceTick (p : Part) (k : Nat) : Part :=
  match p.post k with
  | some r =>
    if 50 ≤ r.silence then p
    else if r.silence = 49 then p.postGoesLost k
    else p.modPost k fun r => { r with silence := r.silence + 1 }
  | none => p

/-- Whether the play deadline runs. -/
def Post.timed (r : Post) : Bool := r.state = .playing || r.state = .halting

/-- The play of post `k` has overrun (R147). -/
def Part.postOverruns (p : Part) (k : Nat) : Part :=
  let p := ((p.endCurrent k .discarded).removeOrder (.post k)).setPostState k .lost
  (p.modPostCount k fun c => { c with overdue := bump16 c.overdue }).postFault k .postPlayOverdue

/-- Post `k`'s play deadline at a cycle start (R147). -/
def Part.postDeadlineTick (p : Part) (k : Nat) : Part :=
  match p.post k with
  | some r =>
    if r.timed then
      if r.deadline ≤ 1 then p.postOverruns k else p.modPost k fun r => { r with deadline := r.deadline - 1 }
    else p
  | none => p

/-- A cycle start for every post: deadlines, then silence counts. -/
def Part.postsTick (p : Part) : Part :=
  postNumbers.foldl Part.postSilenceTick (postNumbers.foldl Part.postDeadlineTick p)

/-! ## Order results (R145, R150) -/

/-- A Halt Play placed for the arrival of an item of some rank; the post becomes Halting (R149). -/
def Part.haltPlay (p : Part) (k rank : Nat) : Part :=
  (p.placeOrder (.post k) .haltPlay (rankClass rank) (p.postEntry k).station).setPostState k .halting

/-- The rank of the highest item waiting at post `k`. -/
def Part.headRank (p : Part) (k : Nat) : Nat :=
  match p.post k with
  | none => 0
  | some r =>
    match r.queue with
    | [] => 0
    | it :: _ => it.rank

/-- The post plays its current item: order phase Confirmed, deadline set (R145). That pre-empt wanted, which R145 clears at the result Halted,
is cleared here as well is a DESIGN CHOICE (log 64). -/
def Part.startPlaying (p : Part) (k : Nat) : Part :=
  (p.modPost k fun r =>
    let d :=
      match r.lookup, r.current with
      | some l, some it => l.deadline it.repeats
      | _, _ => 10
    { r with phase := .confirmed, deadline := d, preempt := false }).setPostState k .playing

/-- The result of a Play order, whose post has the order phase In Channel (R145). The fault and its Notice come before the post becomes
Lost, as the table of R145 lists them (DEDUCED, log 59). -/
def Part.playResult (p : Part) (k : Nat) (r : Post) (res : OrderResult) : Part :=
  match res with
  | .done => if r.preempt then (p.startPlaying k).haltPlay k (p.headRank k) else p.startPlaying k
  | .haltedAccepted => (p.startPlaying k).haltPlay k (p.headRank k)
  | .halted => (p.returnCurrent k ((r.current.map fun it => it.repeats).getD 1)).dispatch k
  | .rejected => ((p.endCurrent k .discarded).postFault k .orderRejected).dispatch k
  | .refused => ((p.endCurrent k .discarded).postFault k .orderRefused).dispatch k
  | .noReply => ((p.endCurrent k .discarded).postFault k .noReply).setPostState k .lost
  | .unroutable => ((p.endCurrent k .discarded).postFault k .unroutable).setPostState k .lost

/-- The result of an order of post `k`: a Play order's is acted on while the order phase is In Channel (R145), a Halt Play's has
no effect (R150). -/
def Part.postResult (p : Part) (k : Nat) (o : Order) (res : OrderResult) : Part :=
  match p.post k with
  | none => p
  | some r => if o ≠ .haltPlay && r.phase = .inChannel then p.playResult k r res else p

end Sys2Proof.Machine
end

