-- ==== Sys2Proof/Machine/Channels.lean ====
section
/-! DEFINITION. The Order Channels (chapter 4): grants, builds, reports of transmission and discard, Confirms, reply windows and
halts. -/

namespace Sys2Proof.Machine

/-! ## Results (R70) -/

/-- A result handed to the owner of the record, which acts by its own chapter (R93, R124, R130, R145). -/
def Part.deliver (p : Part) (r : RecordId) (o : Order) (res : OrderResult) : Part :=
  match r with
  | .lamp => p.lampResult res
  | .slide k => p.slideResult k o res
  | .shutter k => p.shutterResult k o res
  | .post k => p.postResult k o res

/-- The order of channel `c` ends: the channel is Idle with its result, which is then reported to the owner, unless the owner
discards it on arrival (R70, R116, R127, R138, R140). -/
def Part.endOrder (p : Part) (c : Nat) (res : OrderResult) : Part :=
  let ch := p.channel c
  let p := p.modChannel c fun x => x.finish res
  if ch.deaf then p else p.deliver ch.record ch.order res

/-! ## Builds (R62) -/

/-- The route check: the Route Table entry of the target resolves to at least one Up port, and the target is neither station 0 nor
the own number (R62). -/
def Part.targetRouted (p : Part) (st : Station) : Bool :=
  st ≠ 0 && st ≠ p.own &&
  match p.resolve none (p.routeFor st) with
  | .target _ => true
  | .discard _ => false

/-- The frame of a channel's order (R62, step 3). -/
def Channel.frame (own : Station) (ch : Channel) : Frame :=
  builtFrame own ch.target ch.cls kindOrder ch.toggle true (orderPayload ch.order)

/-- The order of channel `c` built: route check, try, frame, Agent Port (R62). -/
def Part.buildOrder (p : Part) (c : Nat) : Part :=
  let ch := p.channel c
  if !p.targetRouted ch.target then p.endOrder c .unroutable
  else
    let b := p.builds + 1
    let p := { p with builds := b }
    let p := p.modChannel c fun x =>
      { x with state := .sending, triesLeft := x.triesLeft - 1, timer := 0, retryDue := false, build := b, stage := .unsent }
    p.offer (ch.frame p.own) (.channel c b)

/-! ## The arbiter (R59) -/

/-- A pending order is eligible while no channel in flight has its target (R59). -/
def Part.eligible (p : Part) (o : PendingOrder) : Bool :=
  channelNumbers.all fun c => !((p.channel c).busy && (p.channel c).target = o.target)

/-- The pending order granted among eligible ones in the order of placing: the highest class, then the earliest placed (R59). -/
def firstByClass (l : List PendingOrder) : Option PendingOrder :=
  l.foldl (fun best o =>
    match best with
    | none => some o
    | some b => if clsCode o.cls < clsCode b.cls then some o else some b) none

/-- The Idle channel of the lowest number. -/
def Part.idleChannel (p : Part) : Option Nat := channelNumbers.find? fun c => !(p.channel c).busy

/-- The order phase of a post whose Play order is granted (R144). -/
def Part.notePlayGranted (p : Part) (o : PendingOrder) : Part :=
  match o.record with
  | .post k => if o.order ≠ .haltPlay then p.modPost k fun r => { r with phase := .inChannel } else p
  | .lamp => p
  | .slide _ => p
  | .shutter _ => p

/-- A pending order given to channel `c`: it leaves its place, the target's toggle is flipped, and the order is built (R59, R61,
R62). -/
def Part.grantTo (p : Part) (c : Nat) (o : PendingOrder) : Part :=
  let p := p.removeOrder o.record
  let p := { p with toggles := p.toggles.modify o.target not }
  let tries := p.triesSetting
  let toggle := p.toggles.getD o.target false
  let p := p.modChannel c fun x =>
    { state := .sending, record := o.record, target := o.target, order := o.order, cls := o.cls, toggle, triesLeft := tries,
      build := x.build }
  (p.notePlayGranted o).buildOrder c

/-- One grant of the channel arbiter, where an Idle channel and an eligible pending order exist (R59). -/
def Part.grant (p : Part) : Part :=
  match p.idleChannel, firstByClass (p.orders.filter p.eligible) with
  | some c, some o => p.grantTo c o
  | _, _ => p

/-! ## Reports of the Relay (R63, R64) -/

/-- The first transmission of build `b` of channel `c` reported; any other report starts nothing (R63). -/
def Part.orderSent (p : Part) (c b : Nat) : Part :=
  let ch := p.channel c
  if ch.build = b && ch.stage = .unsent then
    let w := p.replyWindow
    match ch.state with
    | .sending => p.modChannel c fun x => { x with state := .awaiting, transmitted := true, timer := w, stage := .sent }
    | .halting => p.modChannel c fun x => { x with transmitted := true, timer := w, stage := .sent }
    | .awaiting => p
    | .idle => p
  else p

/-- Whether a frame is of build `b` of channel `c`. -/
def Builder.isBuild (x : Builder) (c b : Nat) : Bool := x = .channel c b

/-- Whether an Agent Port slot or a waiting place holds build `b` of channel `c`, so that it can be withdrawn (R51). -/
def Part.agentHolds (p : Part) (c b : Nat) : Bool :=
  p.agent.slots.any (fun s => s.builder.isBuild c b) || p.agent.waiting.any fun w => w.builder.isBuild c b

/-- Whether a port's queue or burst holds build `b` of channel `c`. -/
def Port.holdsBuild (x : Port) (c b : Nat) : Bool :=
  x.queue.any (fun f => f.builder.isBuild c b) || x.sending.any fun f => f.builder.isBuild c b

/-- Whether a copy of build `b` of channel `c` remains in the part (R64). -/
def Part.copyRemains (p : Part) (c b : Nat) : Bool :=
  p.agentHolds c b || portIds.any fun q => (p.port q).holdsBuild c b

/-- A discard of build `b` of channel `c` reported with its counter: acted on when no copy remains and none was transmitted
(R64). -/
def Part.orderDiscarded (p : Part) (c b : Nat) (n : Counter) : Part :=
  let ch := p.channel c
  if ch.build = b && ch.stage = .unsent && !p.copyRemains c b then
    match ch.state with
    | .sending =>
      if n = .unroutable then p.endOrder c .unroutable
      else if 1 ≤ ch.triesLeft then p.modChannel c fun x => { x with retryDue := true, stage := .none }
      else p.endOrder c .noReply
    | .halting => p.endOrder c .halted
    | .awaiting => p
    | .idle => p
  else p

/-- A discard reported to the builder of the frame, which for a channel is R64 and for others nothing (R51). -/
def Part.reportDiscard (p : Part) (x : Builder) (n : Counter) : Part :=
  match x with
  | .channel c b => p.orderDiscarded c b n
  | .part => p
  | .station => p

/-- A transmission reported to the builder of the frame (R51). -/
def Part.reportSent (p : Part) (x : Builder) : Part :=
  match x with
  | .channel c b => p.orderSent c b
  | .part => p
  | .station => p

/-! ## Withdrawal (R51) -/

/-- Build `b` of channel `c` withdrawn while it is in an Agent Port slot, where it is counted as flushed, or waits for one. -/
def Part.withdraw (p : Part) (c b : Nat) : Part :=
  let inSlot := p.agent.slots.any fun s => s.builder.isBuild c b
  let p := if inSlot then p.countAgent .flushed else p
  { p with agent := { p.agent with
      slots := p.agent.slots.filter fun s => !s.builder.isBuild c b
      waiting := p.agent.waiting.filter fun w => !w.builder.isBuild c b } }

/-! ## Confirms (R65, R66, R69) -/

/-- The channel in flight for a station. -/
def Part.channelOf (p : Part) (st : Station) : Option Nat :=
  channelNumbers.find? fun c => (p.channel c).busy && (p.channel c).target = st

/-- A stale Confirm counted (R65). -/
def Part.countStale (p : Part) : Part := { p with stale := bump16 p.stale }

/-- A matched Confirm acted on by its result and the channel's state (R66, R69). A stopped reply-window timer reads 0 (R62, R66, R68;
DESIGN CHOICE, log 40). -/
def Part.actConfirm (p : Part) (c : Nat) (res : ConfirmResult) : Part :=
  let ch := p.channel c
  match ch.state, res with
  | .awaiting, .accepted => p.endOrder c .done
  | .awaiting, .busy =>
    if 1 ≤ ch.triesLeft then p.modChannel c fun x => { x with state := .sending, retryDue := true, timer := 0 }
    else p.endOrder c .refused
  | .awaiting, .rejected => p.endOrder c .rejected
  | .sending, .accepted => (p.withdraw c ch.build).endOrder c .done
  | .sending, .busy => p
  | .sending, .rejected => (p.withdraw c ch.build).endOrder c .rejected
  | .halting, .accepted => p.endOrder c .haltedAccepted
  | .halting, .busy => p.endOrder c .halted
  | .halting, .rejected => p.endOrder c .halted
  | .idle, _ => p

/-- A Confirm taken by the Order Channels: a result without a code is bad form; one that matches no channel, or a channel that has
not transmitted, or another toggle, is stale (R65). -/
def Part.takeConfirm (p : Part) (q : PortId) (src : Station) (toggle : Bool) (result : Nat) : Part :=
  match confirmOf result with
  | none => p.count q .badForm
  | some res =>
    match p.channelOf src with
    | none => p.countStale
    | some c =>
      if (p.channel c).transmitted && (p.channel c).toggle = toggle then p.actConfirm c res else p.countStale

/-! ## Reply windows and retries (R63, R64, R67, R69) -/

/-- Whether the reply-window timer counts down: in Awaiting, and in Halting unless the current build is not transmitted yet (R63,
R68, R69; log 26). -/
def Channel.timed (ch : Channel) : Bool := ch.state = .awaiting || (ch.state = .halting && ch.stage ≠ .unsent)

/-- The reply window of channel `c` expires (R67, R69). -/
def Part.windowExpires (p : Part) (c : Nat) : Part :=
  let ch := p.channel c
  match ch.state with
  | .awaiting => if 1 ≤ ch.triesLeft then p.buildOrder c else p.endOrder c .noReply
  | .halting => p.endOrder c .halted
  | .sending => p
  | .idle => p

/-- Channel `c`'s timer at a cycle start (R63). -/
def Part.windowTick (p : Part) (c : Nat) : Part :=
  let ch := p.channel c
  if ch.timed then
    if ch.timer ≤ 1 then p.windowExpires c else p.modChannel c fun x => { x with timer := x.timer - 1 }
  else p

/-- A channel with retry due rebuilds its order (R62, R64, R66). -/
def Part.rebuild (p : Part) (c : Nat) : Part := if (p.channel c).retryDue then p.buildOrder c else p

/-! ## Halting (R68) -/

/-- The halt of an order in Sending that was never transmitted: withdrawn or not yet built, it ends Halted; in an output queue, the
channel waits in Halting with its timer stopped (R68). -/
def Part.haltUnsent (p : Part) (c : Nat) : Part :=
  let ch := p.channel c
  if ch.retryDue then p.endOrder c .halted
  else if p.agentHolds c ch.build then (p.withdraw c ch.build).endOrder c .halted
  else p.modChannel c fun x => { x with state := .halting, timer := 0 }

/-- The halt of an order in Sending after an earlier transmission: Halting for a full reply window (R68). -/
def Part.haltResending (p : Part) (c : Nat) : Part :=
  let ch := p.channel c
  let held := p.agentHolds c ch.build
  let w := p.replyWindow
  (p.withdraw c ch.build).modChannel c fun x =>
    { x with state := .halting, timer := w, retryDue := false, stage := if held then .none else x.stage }

/-- A halt request acted on by channel `c` (R68). -/
def Part.haltChannel (p : Part) (c : Nat) : Part :=
  let ch := p.channel c
  match ch.state with
  | .sending => if ch.transmitted then p.haltResending c else p.haltUnsent c
  | .awaiting => p.modChannel c fun x => { x with state := .halting }
  | .halting => p
  | .idle => p

/-- A halt request for the order of a record in a channel, if any (R68). -/
def Part.haltRecord (p : Part) (r : RecordId) : Part :=
  match p.channelFor r with
  | some c => p.haltChannel c
  | none => p

end Sys2Proof.Machine
end

