-- ==== Sys2Proof/Machine/PostQueue.lean ====
section
/-! DEFINITION. Handing items to the posts and taking them away (R142, R143, R149), and what a commit of the Post table does (R138). -/

namespace Sys2Proof.Machine

/-! ## Pre-emption and handing in (R142, R149) -/

/-- The effect of an item that has entered the queue of post `k`: dispatch at an Idle post without a current item, pre-emption of
a current item of lower priority (R144, R149). -/
def Part.preempt (p : Part) (k rank : Nat) : Part :=
  match p.post k with
  | none => p
  | some r =>
    match r.current with
    | none => p.dispatch k
    | some cur =>
      if rank ≤ cur.rank then p
      else
        match r.state, r.phase with
        | .idle, .pending => ((p.removeOrder (.post k)).returnCurrent k cur.repeats).dispatch k
        | .idle, .inChannel =>
          if r.preempt then p else (p.modPost k fun r => { r with preempt := true }).haltRecord (.post k)
        | .idle, .none => p
        | .idle, .confirmed => p
        | .playing, _ => p.haltPlay k rank
        | .halting, _ => p
        | .unknown, _ => p
        | .lost, _ => p
        | .disabled, _ => p

/-- An item handed to post `k` by a source agent (R142). -/
def Part.handIn (p : Part) (k : Nat) (it : Item) : Part :=
  match p.post k with
  | none => p.refuseItem k it
  | some r =>
    if r.state = .disabled then p.refuseItem k it
    else
      let (p, entered) := p.enterItem k false it
      if entered then p.preempt k it.rank else p

/-- One item handed to each of several posts, in rising post number (DESIGN CHOICE, log 56). -/
def Part.handInAll (p : Part) (ks : List Nat) (it : Item) : Part := ks.foldl (fun p k => p.handIn k it) p

/-! ## Removal (R143) -/

/-- The items of a source removed at post `k`: a waiting one, and a current one whose Play order is pending. -/
def Part.removeAt (src : ItemSource) (p : Part) (k : Nat) : Part :=
  match p.post k with
  | none => p
  | some r =>
    let p := p.modPost k fun r => { r with queue := r.queue.filter fun x => x.source ≠ src }
    if r.phase = .pending && r.current.any (fun it => it.source = src) then
      ((p.removeOrder (.post k)).modPost k Post.clear).dispatch k
    else p

/-- The items of a source removed from every post (R143), in rising post number (DESIGN CHOICE, log 56). -/
def Part.removeSource (p : Part) (src : ItemSource) : Part := postNumbers.foldl (Part.removeAt src) p

/-! ## A commit of the Post table (R138) -/

/-- Every item waiting at post `k` removed with outcome Discarded. -/
def Part.discardQueue (p : Part) (k : Nat) : Part :=
  match p.post k with
  | none => p
  | some r =>
    let p := p.modPost k fun r => { r with queue := [] }
    r.queue.foldl (fun p it => p.giveOutcome k it.source .discarded) p

/-- The station of post `k` changed, with its enabled flag as the new entry has it. The queue is kept and a Play order in a channel goes on,
also where the flag was cleared (DESIGN CHOICE, log 47). -/
def Part.postMoved (p : Part) (k : Nat) (enabled : Bool) : Part :=
  ((p.dropCurrent k).modPost k fun r => { r with silence := 0, heard := false, lastTest := none }).setPostState k
    (if enabled then .unknown else .disabled)

/-- Every Play order of post `k` in a channel halted, and the results of its orders in channels discarded on arrival; a halt reaches an
order whose result was to be discarded already (R68, R138; log 41). -/
def Part.haltQuietly (p : Part) (k : Nat) : Part :=
  let plays := (p.channelsOf (.post k)).filter fun c => (p.channel c).order ≠ .haltPlay
  plays.foldl Part.haltChannel (p.deafen (.post k))

/-- The enabled flag of post `k` cleared. -/
def Part.postDisabled (p : Part) (k : Nat) : Part :=
  ((((p.haltQuietly k).endCurrent k .discarded).removeOrder (.post k)).discardQueue k).setPostState k .disabled

/-- The enabled flag of post `k` set (R138). The silence count that starts again at 0 puts an earlier report on hand again, by its
definition. -/
def Part.postEnabled (p : Part) (k : Nat) : Part :=
  if (p.post k).any fun r => r.onHand then (p.setPostState k .idle).dispatch k
  else (p.modPost k fun r => { r with silence := 0 }).setPostState k .unknown

/-- Post `k` no longer in use: record and queue go, the counters stay (log 46). -/
def Part.postRemoved (p : Part) (k : Nat) : Part :=
  let p := (p.dropCurrent k).discardQueue k
  { p with posts := modifyAt p.posts k fun _ => none }

/-- What the commit does to post `k`, given the entry before it (R138). An entry whose station has changed is taken by that row alone, its
enabled flag cleared or not (DESIGN CHOICE, log 47). -/
def Part.postCommitted (old : Table) (p : Part) (k : Nat) : Part :=
  let a := postEntryOf old k
  let b := p.postEntry k
  if !b.inUse then (if a.inUse then p.postRemoved k else p)
  else if !a.inUse then
    let r : Post := { state := if b.enabled then .unknown else .disabled }
    { p with posts := modifyAt p.posts k fun _ => some r }
  else if a.station ≠ b.station then p.postMoved k b.enabled
  else if a.enabled && !b.enabled then p.postDisabled k
  else if !a.enabled && b.enabled then p.postEnabled k
  else p

/-- What a successful commit of the Post table brings, given the table before it (R138), in rising post number (DESIGN CHOICE, log 56). -/
def Part.postsCommitted (p : Part) (old : Table) : Part := postNumbers.foldl (Part.postCommitted old) p

end Sys2Proof.Machine
end

