-- ==== Sys2Proof/Machine/Raising.lean ====
section
/-! DEFINITION. What the Day Unit's Open step and Restore ask of the shutters (R135). -/

namespace Sys2Proof.Machine

/-- A Lower order. -/
def Order.isLower (o : Order) : Bool := o = .shutterToPause || o = .shutterFull

/-- Every Lower order of entry `k` in a channel halted, one whose result is to be discarded too (R68, R135; log 41). -/
def Part.haltLower (p : Part) (k : Nat) : Part :=
  ((p.channelsOf (.shutter k)).filter fun c => (p.channel c).order.isLower).foldl Part.haltChannel p

/-- A Raise placed on entry `k` where its record is other than Open (R135). -/
def Part.raiseOne (p : Part) (k : Nat) : Part :=
  match p.shutterRec k with
  | some r => if r.state ≠ .opened then p.orderShutter k .raise else p
  | none => p

/-- The shutters raised and the sequences ended: pending Lower orders removed, those in channels halted, a Raise for every shutter
not Open, every sequence Idle (R135). -/
def Part.raiseShutters (p : Part) : Part :=
  let p := shutterNumbers.foldl Part.dropLower p
  let p := shutterNumbers.foldl Part.haltLower p
  let p := shutterNumbers.foldl Part.raiseOne p
  { p with sequences := p.sequences.map fun _ => {} }

/-- Lower Full given to an escape shutter that is still Paused or ordered to its pause (R135). -/
def Part.completeOne (p : Part) (k : Nat) : Part :=
  match p.shutterRec k with
  | some r => if (p.shutter k).escape && (r.state = .paused || r.move = some .toPause) then p.giveShutter k .full else p
  | none => p

/-- The closure completed for the night: every escape hold of a sequence of cause Evacuation at its end (R135). -/
def Part.completeClosure (p : Part) : Part :=
  let p := { p with sequences := p.sequences.map fun s => if s.cause = some .evacuation then { s with timer := 0 } else s }
  shutterNumbers.foldl Part.completeOne p

end Sys2Proof.Machine
end

