-- ==== Sys2Proof/Machine/Relay.lean ====
section
/-! DEFINITION. The Relay and the line ports (chapters 1 to 3): target sets, output arbiters, bursts, port states, the Hold List,
class gates, ages, and the Agent Port's waiting frames. -/

namespace Sys2Proof.Machine

/-! ## Discards of waiting frames (R36, R51, R52) -/

/-- A frame discarded from a slot of an external port or of the Agent Port, or from a queue, with the input whose counter counts it. -/
structure Lost where
  builder : Builder
  at_     : Input
  counter : Counter
deriving DecidableEq, Repr, Inhabited

/-- Discards counted, then reported to the builders (R30, R51). The slots they free are not given to waiting frames here, but at
AGENT_PORT_SLOT_TAKEN (DESIGN CHOICE, log 74). -/
def Part.countLost (p : Part) (ls : List Lost) : Part :=
  let p := ls.foldl (fun p l => p.countAt l.at_ l.counter) p
  ls.foldl (fun p l => p.reportDiscard l.builder l.counter) p

/-- A slot after a port has left Up. -/
def Slot.prune (q : PortId) (s : Slot) : Slot := { s with target := s.target.filter fun t => t ≠ q }

/-- The slots of an input after a port has left Up: those with a target left, and the discards of the others. -/
def pruneSlots (q : PortId) (i : Input) (ss : List Slot) : List Slot × List Lost :=
  let ss := ss.map (Slot.prune q)
  (ss.filter fun s => !s.target.isEmpty,
   (ss.filter fun s => s.target.isEmpty).map fun s => { builder := s.builder, at_ := i, counter := .unroutable })

/-- A port that has left Up removed from every target set; a frame left without a target is discarded as unroutable at its port of
arrival (R36, R38). -/
def Part.prune (p : Part) (q : PortId) : Part :=
  let lost := portIds.flatMap (fun i => (pruneSlots q (.port i) (p.port i).slots).2) ++ (pruneSlots q .agent p.agent.slots).2
  let p := portIds.foldl (fun p i => p.modPort i fun x => { x with slots := (pruneSlots q (.port i) x.slots).1 }) p
  let p := { p with agent := { p.agent with slots := (pruneSlots q .agent p.agent.slots).1 } }
  p.countLost lost

/-- Port `q`'s output queue emptied, each frame counted as flushed at that port (R21, R22, R56). -/
def Part.flushQueue (p : Part) (q : PortId) : Part :=
  let lost := (p.port q).queue.map fun f => ({ builder := f.builder, at_ := .port q, counter := .flushed } : Lost)
  (p.modPort q fun x => { x with queue := [] }).countLost lost

/-! ## Output arbiters (R46, R47, R49, R50) -/

/-- The queue of port `q` has a free place (R49). -/
def Part.hasSpace (p : Part) (q : PortId) : Bool := (p.port q).queue.length < 8 && (p.port q).state.live

/-- An offer of an input: its place in the list it comes from, the frame as it would be queued, and its target set. -/
structure Offer where
  input  : Input
  place  : Nat
  frame  : Queued
  target : List PortId
deriving DecidableEq, Repr, Inhabited

/-- The offer of two that has the higher class; of equals, the first. -/
def betterOffer (a b : Option Offer) : Option Offer :=
  match a, b with
  | some x, some y => if clsCode y.frame.frame.cls < clsCode x.frame.frame.cls then some y else some x
  | some x, none => some x
  | none, b => b

/-- The frames an input could offer: those whose every target queue has space (R46, R47). -/
def Part.offerable (p : Part) (o : Offer) : Option Offer := if o.target.all p.hasSpace then some o else none

/-- The offer of slots held in the order of acceptance (R47). -/
def Part.slotOffer (p : Part) (i : Input) (ss : List Slot) : Option Offer :=
  (ss.zipIdx.map fun (s, n) =>
    let f : Queued := { frame := s.frame, builder := s.builder, arrival := i, age := s.age }
    p.offerable { input := i, place := n, frame := f, target := s.target }).foldl betterOffer none

/-- The offer of the Hold input (R46). A released frame's age counts from its placement. -/
def Part.holdOffer (p : Part) : Option Offer :=
  (p.hold.zipIdx.map fun (e, n) =>
    let f : Queued := { frame := e.frame, builder := .station, arrival := .hold, age := 0 }
    if e.eligible then p.offerable { input := .hold, place := n, frame := f, target := e.target } else none).foldl betterOffer none

/-- The offer of an input. -/
def Part.offerOf (p : Part) (i : Input) : Option Offer :=
  match i with
  | .port q => p.slotOffer i (p.port q).slots
  | .agent => p.slotOffer i p.agent.slots
  | .hold => p.holdOffer

/-- The cyclic order of the inputs (R50). -/
def Input.next : Input → Input
  | .port .n => .port .s
  | .port .s => .port .w
  | .port .w => .agent
  | .agent => .hold
  | .hold => .port .n

/-- The five inputs in cyclic order from a pointer. -/
def inputsFrom (i : Input) : List Input := [i, i.next, i.next.next, i.next.next.next, i.next.next.next.next]

/-- The offer the arbiter of port `q` grants: the highest class, then the first reached from its pointer (R50). -/
def Part.granted (p : Part) (q : PortId) : Option Offer :=
  ((inputsFrom (p.port q).pointer).map fun i => (p.offerOf i).filter fun o => o.target.contains q).foldl betterOffer none

/-- A frame put into a queue, behind every frame of its own or a higher class (R49). -/
def enterByClass (f : Queued) (q : List Queued) : List Queued :=
  q.takeWhile (fun x => clsCode x.frame.cls ≤ clsCode f.frame.cls) ++
    f :: q.dropWhile fun x => clsCode x.frame.cls ≤ clsCode f.frame.cls

/-- The frame of a granted offer gone from where it stood. -/
def Part.takeOffered (p : Part) (o : Offer) : Part :=
  match o.input with
  | .port q => p.modPort q fun x => { x with slots := x.slots.eraseIdx o.place }
  | .agent => { p with agent := { p.agent with slots := p.agent.slots.eraseIdx o.place } }
  | .hold => { p with hold := p.hold.eraseIdx o.place }

/-- A grant of the arbiter of port `q`, if an offer is there: the frame enters every queue of its target set, each arbiter of the set
moves its pointer past the input, and the frame leaves its slot or entry (R50). -/
def Part.outputGrant (p : Part) (q : PortId) : Part :=
  match p.granted q with
  | none => p
  | some o =>
    let p := (portIds.filter fun t => o.target.contains t).foldl (fun p t =>
      p.modPort t fun x => { x with queue := enterByClass o.frame x.queue, pointer := o.input.next }) p
    p.takeOffered o

/-! ## The Agent Port's waiting frames (R28) -/

/-- The waiting frame that takes the next slot: the highest class that the class rule allows, then the longest waiting. Its place in
the list and the frame. -/
def AgentPort.nextWaiting (a : AgentPort) : Option (Waiting × Nat) :=
  (a.waiting.zipIdx.filter fun (w, _) => classRule a.free w.frame.cls).foldl
    (fun best w =>
      match best with
      | none => some w
      | some b => if clsCode w.1.frame.cls < clsCode b.1.frame.cls then some w else some b) none

/-- A frame that was waiting taken into a slot, or discarded as unroutable with a report to its builder (R28, R38, R51). -/
def Part.takeWaiting (p : Part) (w : Waiting) (i : Nat) : Part :=
  let p := { p with agent := { p.agent with waiting := p.agent.waiting.eraseIdx i } }
  let (p, discarded) := p.agentAccept w.frame w.builder
  if discarded then p.reportDiscard w.builder .unroutable else p

/-- Waiting frames taken one at a time while the class rule allows (R28). -/
def Part.takeAllWaiting (p : Part) : Nat → Part
  | 0 => p
  | fuel + 1 =>
    match p.agent.nextWaiting with
    | some (w, i) => (p.takeWaiting w i).takeAllWaiting fuel
    | none => p

/-! ## Bursts (R4, R51) -/

/-- The next frame of port `q`'s burst taken from the head of the queue; the burst ends when there is none, after ten frames, or when
the port has left the states that send (R4, R21). -/
def Part.burstNext (p : Part) (q : PortId) : Part :=
  let x := p.port q
  match x.queue with
  | f :: rest =>
    if x.state.live && 0 < x.burstLeft then
      p.modPort q fun x => { x with queue := rest, sending := some f, burstLeft := x.burstLeft - 1 }
    else p.modPort q fun x => { x with burstLeft := 0 }
  | [] => p.modPort q fun x => { x with burstLeft := 0 }

/-- The burst of port `q` begins (R4). -/
def Part.burstBegin (p : Part) (q : PortId) : Part :=
  if (p.port q).state.live then (p.modPort q fun x => { x with burstLeft := 10 }).burstNext q else p

/-- The frame that port `q`'s burst is sending has left: its transmission is reported and the burst goes on (R4, R51). -/
def Part.burstSent (p : Part) (q : PortId) : Part :=
  match (p.port q).sending with
  | none => p
  | some f =>
    let p := (p.transmit q f.frame).modPort q fun x => { x with sending := none }
    (p.reportSent f.builder).burstNext q

/-- Port `q`'s burst to its end: at most ten frames (R4). -/
def Part.burstFinish (p : Part) (q : PortId) : Nat → Part
  | 0 => p
  | fuel + 1 => if (p.port q).sending.isSome then (p.burstSent q).burstFinish q fuel else p

/-! ## Port states (R17 to R24) -/

/-- Port `q` put into a state; a change raises the condition with port, old state and new state (R24). The counts are kept (R21). Where the
port leaves Up, the Notices are built before the target sets are pruned (DESIGN CHOICE, log 36). -/
def Part.setPortState (p : Part) (q : PortId) (s : PortState) : Part :=
  let old := (p.port q).state
  if old = s then p
  else
    let p := p.modPort q fun x => { x with state := s }
    p.raise .portChange [byteOf (portCode q), byteOf (portStateCode old), byteOf (portStateCode s)]

/-- Port `q` enters Up: silence count 0 (R18, R19). -/
def Part.enterUp (p : Part) (q : PortId) : Part :=
  (p.modPort q fun x => { x with silence := 0 }).setPortState q .up

/-- Port `q` enters Training: training count and silence count 0 (R18, R19). -/
def Part.enterTraining (p : Part) (q : PortId) : Part :=
  (p.modPort q fun x => { x with training := 0, silence := 0 }).setPortState q .training

/-- Port `q` enters Silent: no longer Up, so target sets are pruned; its queue is kept (R18, R19, R29, R36). -/
def Part.enterSilent (p : Part) (q : PortId) : Part := (p.setPortState q .silent).prune q

/-- Port `q` enters Off: target sets pruned, queue flushed, a Poll received on it left unanswered (R3); the frame being sent is
completed and its burst then ends (R21). -/
def Part.enterOff (p : Part) (q : PortId) : Part :=
  ((((p.modPort q fun x => { x with burstLeft := 0 }).setPortState q .off).prune q).flushQueue q).dropPoll q

/-- A Port Enable of port `q` (R20, R23). -/
def Part.enablePort (p : Part) (q : PortId) : Part × ManageResult :=
  match (p.port q).state with
  | .off => (p.enterTraining q, .done)
  | .training => (p, .done)
  | .up => (p, .done)
  | .silent => (p, .done)
  | .faulted => if p.cooldown = 0 then (p.enterTraining q, .done) else (p, .refusedState)

/-- A Port Disable of port `q` by a frame that arrived on port `arrival` (R21, R23). -/
def Part.disablePort (p : Part) (q arrival : PortId) : Part × ManageResult :=
  match (p.port q).state with
  | .faulted => (p, .refusedState)
  | .off => (p, .done)
  | .training | .up | .silent => if q = arrival then (p, .refusedState) else (p.enterOff q, .done)

/-- The frame that port `q`'s burst is sending cut short: counted as flushed, with a report of its discard (R22). -/
def Part.cutShort (p : Part) (q : PortId) : Part :=
  match (p.port q).sending with
  | none => p
  | some f =>
    (p.modPort q fun x => { x with sending := none, burstLeft := 0 }).countLost
      [{ builder := f.builder, at_ := .port q, counter := .flushed }]

/-- The overcurrent sense asserted on the spur feed, while it is powered (R22). -/
def Part.overcurrent (p : Part) : Part :=
  if p.spurPower then
    let p := (({ p with cooldown := 250 }).modPort .w fun x => { x with training := 0 }).setPortState .w .faulted
    let p := (p.prune .w).cutShort .w
    ((p.flushQueue .w).dropPoll .w).fault .spurOvercurrent 0
  else p

/-- A valid frame received on port `q`: received counted, silence count 0, Training and Silent left for Up (R18, R19, R25). -/
def Part.portHears (p : Part) (q : PortId) : Part :=
  let p := (p.count q .received).modPort q fun x => { x with silence := 0 }
  match (p.port q).state with
  | .training => p.enterUp q
  | .silent => p.enterUp q
  | .up => p
  | .off => p
  | .faulted => p

/-- The training and silence counts of port `q` at a cycle start (R18, R19). -/
def Part.portTick (p : Part) (q : PortId) : Part :=
  let x := p.port q
  if x.state.live then
    let p := p.modPort q fun x => { x with silence := bump8 x.silence }
    match x.state with
    | .training =>
      if 10 ≤ x.training then p.enterSilent q else p.modPort q fun x => { x with training := x.training + 1 }
    | .up => if p.silenceLimit ≤ bump8 x.silence then p.enterSilent q else p
    | .silent => p
    | .off => p
    | .faulted => p
  else p

/-! ## The Hold List (R45, R48) -/

/-- Whether a hold condition holds (R45). -/
def Part.holdConditionNow (p : Part) (c : HoldCondition) : Bool :=
  match c with
  | .chainAtRest =>
    (p.chain.mode = .parked || p.chain.mode = .halted) && p.chain.record.freshness = .fresh && p.chain.record.v = 0
  | .notEvacuation => p.day.mode ≠ .evacuation
  | .tradingHours => p.day.mode = .trading || p.day.mode = .warning

/-- A Hold List entry evaluated: its target set from the kept route, and whether it is eligible (R45). -/
def Part.evaluateHeld (p : Part) (e : HoldEntry) : HoldEntry :=
  let target :=
    match p.resolve (some e.arrival) e.route with
    | .target t => t
    | .discard _ => []
  if p.holdConditionNow e.condition && !target.isEmpty then { e with eligible := true, target }
  else { e with eligible := false, target := [] }

/-- Every entry of the Hold List evaluated (R45). -/
def Part.evaluateHold (p : Part) : Part := { p with hold := p.hold.map p.evaluateHeld }

/-- The hold ages of a cycle start, with the entries that exceed the hold limit discarded (R48). -/
def Part.ageHold (p : Part) : Part :=
  let aged := p.hold.map fun e => { e with age := e.age + 1 }
  let limit := p.holdLimit
  let p := { p with hold := aged.filter fun e => e.age ≤ limit }
  (aged.filter fun e => limit < e.age).foldl (fun p e => p.count e.arrival .aged) p

/-- The entry at place `i` of the Hold List discarded when the coming cycle start would take it over the hold limit (R48, log 4). -/
def Part.holdExpires (p : Part) (i : Nat) : Part :=
  match p.hold[i]? with
  | none => p
  | some e => if p.holdLimit < e.age + 1 then ({ p with hold := p.hold.eraseIdx i }).count e.arrival .aged else p

/-! ## Frame ages (R52) -/

/-- Slots a cycle older, split into those kept and the discards. -/
def ageSlots (limit : Nat) (i : Input) (ss : List Slot) : List Slot × List Lost :=
  let ss := ss.map fun s => { s with age := s.age + 1 }
  (ss.filter fun s => s.age ≤ limit,
   (ss.filter fun s => limit < s.age).map fun s => { builder := s.builder, at_ := i, counter := .aged })

/-- A queue a cycle older, split into the frames kept and the discards, which are counted at the queue's port. -/
def ageQueue (limit : Nat) (q : PortId) (fs : List Queued) : List Queued × List Lost :=
  let fs := fs.map fun f => { f with age := f.age + 1 }
  (fs.filter fun f => f.age ≤ limit,
   (fs.filter fun f => limit < f.age).map fun f => { builder := f.builder, at_ := .port q, counter := .aged })

/-- Every waiting frame a cycle older, those beyond the frame age limit discarded (R52). -/
def Part.ageFrames (p : Part) : Part :=
  let limit := p.ageLimit
  let lost :=
    portIds.flatMap (fun q => (ageSlots limit (.port q) (p.port q).slots).2 ++ (ageQueue limit q (p.port q).queue).2) ++
      (ageSlots limit .agent p.agent.slots).2
  let p := portIds.foldl (fun p q => p.modPort q fun x =>
    { x with slots := (ageSlots limit (.port q) x.slots).1, queue := (ageQueue limit q x.queue).1 }) p
  let p := { p with agent := { p.agent with slots := (ageSlots limit .agent p.agent.slots).1 } }
  p.countLost lost

/-- The frame at a place discarded when the coming cycle start would take it over the frame age limit (R52, log 4). A retry that this makes
due is rebuilt at that same cycle start, the next one after the command (R64; DESIGN CHOICE, log 4). -/
def Part.frameAges (p : Part) (place : FramePlace) : Part :=
  let limit := p.ageLimit
  match place with
  | .slot q i =>
    match (p.port q).slots[i]? with
    | none => p
    | some s =>
      if limit < s.age + 1 then
        (p.modPort q fun x => { x with slots := x.slots.eraseIdx i }).countLost
          [{ builder := s.builder, at_ := .port q, counter := .aged }]
      else p
  | .agentSlot i =>
    match p.agent.slots[i]? with
    | none => p
    | some s =>
      if limit < s.age + 1 then
        ({ p with agent := { p.agent with slots := p.agent.slots.eraseIdx i } }).countLost
          [{ builder := s.builder, at_ := .agent, counter := .aged }]
      else p
  | .queue q i =>
    match (p.port q).queue[i]? with
    | none => p
    | some f =>
      if limit < f.age + 1 then
        (p.modPort q fun x => { x with queue := x.queue.eraseIdx i }).countLost
          [{ builder := f.builder, at_ := .port q, counter := .aged }]
      else p

/-! ## Class gates (R53, R54) -/

/-- The class a gate acts on. -/
def gateClass : Gate → Cls
  | .signal => .signal
  | .service => .service

/-- A gate is closed by its management setting, the Service gate also by Evacuation (R53). -/
def Part.gateClosed (p : Part) (g : Gate) : Bool :=
  match g with
  | .signal => p.gates.signalSet
  | .service => p.gates.serviceSet || p.day.mode = .evacuation

/-- The gate that acts on a class. -/
def gateOf : Cls → Option Gate
  | .signal => some .signal
  | .service => some .service
  | .safety => none
  | .drive => none

/-- A gate's effective indication. -/
def Gates.effective (x : Gates) : Gate → Bool
  | .signal => x.signalEffective
  | .service => x.serviceEffective

def Gates.setEffective (x : Gates) (g : Gate) (b : Bool) : Gates :=
  match g with
  | .signal => { x with signalEffective := b }
  | .service => { x with serviceEffective := b }

/-- Whether an external port holds, in slot or queue, a frame of a class that was received on an external port (R54). -/
def Port.holdsReceived (x : Port) (c : Cls) : Bool :=
  x.slots.any (fun s => s.frame.cls = c) || x.queue.any fun f => f.frame.cls = c && f.arrival ≠ .agent

/-- Whether a received frame of a class remains in the part (R54). -/
def Part.receivedRemains (p : Part) (c : Cls) : Bool :=
  portIds.any (fun q => (p.port q).holdsReceived c) || p.hold.any fun e => e.frame.cls = c

/-- The effectiveness of a gate brought up to date, its start and its end raised (R54). -/
def Part.gateNow (p : Part) (g : Gate) : Part :=
  let now := p.gateClosed g && (p.gates.effective g || !p.receivedRemains (gateClass g))
  if now = p.gates.effective g then p
  else
    ({ p with gates := p.gates.setEffective g now }).raiseEdge .gateEffective (!now) [byteOf (clsCode (gateClass g))]

/-- Both gates brought up to date. -/
def Part.gatesNow (p : Part) : Part := (p.gateNow .signal).gateNow .service

/-- A gate's management setting (R53): a class that has no gate is out of range. -/
def Part.setGate (p : Part) (cls : Nat) (b : Bool) : Part × ManageResult :=
  match cls with
  | 2 => ({ p with gates := { p.gates with signalSet := b } }, .done)
  | 3 => ({ p with gates := { p.gates with serviceSet := b } }, .done)
  | _ => (p, .refusedRange)

end Sys2Proof.Machine
end

