-- ==== Sys2Proof/Machine/Calls.lean ====
section
/-! DEFINITION. The staff bell calls (chapter 9): Calls and their Confirms, rounds, escalation and expiry, Acknowledges. -/

namespace Sys2Proof.Machine

/-- What a Call or an Acknowledge brings from its frame beside its payload. -/
structure CallFrame where
  source : Station
  cls    : Cls
  toggle : Bool
deriving DecidableEq, Repr, Inhabited

/-- The fields of a Call (12.4). -/
structure CallOrder where
  code     : Nat
  posts    : BitVec 16
  rounds   : Nat
  interval : Nat
deriving DecidableEq, Repr, Inhabited

/-- A Confirm of the Call Unit offered to the Agent Port (R157). -/
def Part.confirmCall (p : Part) (dest : Station) (cls : Cls) (toggle : Bool) (res : ConfirmResult) (id : Nat)
    (reason : CallReason) (completed : Nat) : Part :=
  p.offer (builtFrame p.own dest cls kindConfirm toggle false
    [byteOf (confirmCode res), byteOf id, byteOf (callReasonCode reason), byteOf completed]) .part

/-- The answer to a Call (R156, R157). -/
def Part.answerCall (p : Part) (f : CallFrame) (res : ConfirmResult) (id : Nat) (reason : CallReason) : Part :=
  p.confirmCall f.source f.cls f.toggle res id reason 0

/-- The call of an id. -/
def Part.callOf (p : Part) (id : Nat) : Option Call := p.calls.find? fun c => c.id = id

/-- The call of an id changed. -/
def Part.modCall (p : Part) (id : Nat) (f : Call → Call) : Part :=
  { p with calls := p.calls.map fun c => if c.id = id then f c else c }

/-- The call id after another, 255 being followed by 1 (R155). -/
def nextId (n : Nat) : Nat := if n < 255 then n + 1 else 1

/-- The first id from `n` on that no call holds (R155). -/
def Part.freeIdFrom (p : Part) (n : Nat) : Nat → Nat
  | 0 => n
  | fuel + 1 => if p.callPresent n then p.freeIdFrom (nextId n) fuel else n

/-- The id of the next call; at most sixteen ids are held (R155). -/
def Part.freeId (p : Part) : Nat := p.freeIdFrom (nextId p.lastCall) 16

/-- A call put into the table, in order of call id (R155). -/
def enterCall (c : Call) (cs : List Call) : List Call :=
  cs.takeWhile (fun x => x.id < c.id) ++ c :: cs.dropWhile fun x => x.id < c.id

/-! ## Rounds (R159) -/

/-- One Staff item for each enabled post of a mask, given to the Post Unit (R159). -/
def Part.handRound (p : Part) (id code : Nat) (posts : BitVec 16) : Part :=
  let repeats := ((p.bell code).map fun e => e.repeats).getD 1
  p.handInAll ((inMask 16 posts.toNat).filter fun k => (p.postEntry k).enabled)
    { content := .pattern code, source := .call id, repeats, enqueued := p.cycle }

/-- A call leaves the table, and its items leave the posts (R161). -/
def Part.dropCall (p : Part) (id : Nat) : Part :=
  { p with calls := p.calls.filter fun c => c.id ≠ id }.removeSource (.call id)

/-- A call expires: it leaves the table, its origin is told, the condition is raised (R160). The Confirm is offered to the Agent Port before
the Notices (DESIGN CHOICE, log 72). -/
def Part.expireCall (p : Part) (c : Call) : Part :=
  let p := p.dropCall c.id
  let p := p.confirmCall c.origin c.replyClass c.replyToggle .rejected c.id .expired c.completed
  p.raise .callExpired [byteOf c.id, byteOf c.origin, byteOf c.originalCode, byteOf c.completed]

/-- A call escalates to a code at one post (R160). -/
def Part.escalateCall (p : Part) (c : Call) (code post : Nat) : Part :=
  let p := p.removeSource (.call c.id)
  let posts := BitVec.ofNat 16 (2 ^ (post - 1))
  let p := p.modCall c.id fun c =>
    { c with code, posts, remaining := c.given, escalated := true, nextRound := c.interval * 50 }
  let p := p.handRound c.id code posts
  p.raise .callEscalated [byteOf c.id, byteOf c.originalCode, byteOf code, byteOf post]

/-- A call's rounds run out (R160). -/
def Part.runOut (p : Part) (c : Call) : Part :=
  match p.bell c.code with
  | some e => if !c.escalated && e.escCode ≠ 0 then p.escalateCall c e.escCode e.escPost else p.expireCall c
  | none => p.expireCall c

/-- A call's round is due (R159). -/
def Part.roundDue (p : Part) (c : Call) : Part :=
  if (p.bell c.code).isNone then p.expireCall c
  else if c.remaining ≤ 1 then p.runOut c
  else
    let p := p.modCall c.id fun c => { c with remaining := c.remaining - 1, nextRound := c.interval * 50 }
    p.handRound c.id c.code c.posts

/-- A call's countdown at a cycle start; a round commanded ahead of it has restarted the countdown already (R159, log 4). -/
def Part.roundTick (p : Part) (id : Nat) : Part :=
  match p.callOf id with
  | none => p
  | some c =>
    if p.ahead.contains (.round id) then p
    else if c.nextRound = 0 then p
    else if c.nextRound = 1 then p.roundDue c
    else p.modCall id fun c => { c with nextRound := c.nextRound - 1 }

/-- A cycle start for every call, in order of id. -/
def Part.callsTick (p : Part) : Part := (p.calls.map fun c => c.id).foldl Part.roundTick p

/-! ## Taking a Call (R156, R158) -/

/-- A value of a Call lies outside its range, or the mask is empty (R156). -/
def CallOrder.outOfRange (o : CallOrder) : Bool :=
  !(1 ≤ o.code && o.code ≤ 48 && 1 ≤ o.rounds && o.rounds ≤ 15 && 5 ≤ o.interval && o.interval ≤ 300 && o.posts ≠ 0#16)

/-- The call that a Call of a code joins: the one of the lowest id whose current code it is (R158). -/
def Part.callWithCode (p : Part) (code : Nat) : Option Call := p.calls.find? fun c => c.code = code

/-- A Call merged into a call: a round at once to the posts added (R158). -/
def Part.mergeCall (p : Part) (c : Call) (o : CallOrder) : Part :=
  let p := p.modCall c.id fun c =>
    { c with remaining := max c.remaining o.rounds, given := max c.given o.rounds, posts := c.posts ||| o.posts }
  p.handRound c.id c.code (o.posts &&& ~~~c.posts)

/-- A new call, its first round handed in at once (R158). -/
def Part.newCall (p : Part) (f : CallFrame) (o : CallOrder) (id : Nat) : Part :=
  let c : Call :=
    { id, origin := f.source, replyClass := f.cls, replyToggle := f.toggle, originalCode := o.code, code := o.code,
      posts := o.posts, given := o.rounds, remaining := o.rounds, interval := o.interval, nextRound := o.interval * 50,
      escalated := false, completed := 0, lost := 0 }
  { p with calls := enterCall c p.calls, lastCall := id }.handRound id o.code o.posts

/-- A Call taken: decided by the first test that applies, and answered with one Confirm (R156). The Confirm is offered before the round is
handed in, and so before the Notices of a post that the round pre-empts (DESIGN CHOICE, log 75). -/
def Part.takeCall (p : Part) (f : CallFrame) (o : CallOrder) : Part :=
  if o.outOfRange then p.answerCall f .rejected 0 .outOfRange
  else if p.day.mode = .unloaded then p.answerCall f .rejected 0 .notInService
  else if p.day.mode = .evacuation then p.answerCall f .rejected 0 .evacuation
  else if (p.bell o.code).isNone then p.answerCall f .rejected 0 .notLoaded
  else
    match p.callWithCode o.code with
    | some c => (p.answerCall f .accepted c.id .merged).mergeCall c o
    | none =>
      if 16 ≤ p.calls.length then p.answerCall f .busy 0 .tableFull
      else (p.answerCall f .accepted p.freeId .new).newCall f o p.freeId

/-! ## Answers and cancellation (R163, R164) -/

/-- The calls that an Acknowledge answers: by id, or by current code or, once escalated, original code (R163). -/
def Part.answered (p : Part) (byCode : Bool) (n : Nat) : List Nat :=
  (p.calls.filter fun c =>
    if byCode then c.code = n || (c.escalated && c.originalCode = n) else c.id = n).map fun c => c.id

/-- An Acknowledge taken (R163): a form without a code, an id of 0 and a code outside 1 to 48 are bad form. The calls it answers leave in
rising id (DESIGN CHOICE, log 54). -/
def Part.takeAcknowledge (p : Part) (q : PortId) (form n : Nat) : Part :=
  if (form = 0 && n ≠ 0) || (form = 1 && 1 ≤ n && n ≤ 48) then
    match p.answered (form = 1) n with
    | [] => { p with unmatched := bump16 p.unmatched }
    | ids => ids.foldl Part.dropCall p
  else p.count q .badForm

/-- Every call cancelled (R164), in rising id (DESIGN CHOICE, log 54). -/
def Part.cancelCalls (p : Part) : Part := (p.calls.map fun c => c.id).foldl Part.dropCall p

end Sys2Proof.Machine
end

