-- ==== Sys2Proof/Machine/Day.lean ====
section
/-! DEFINITION. The Day Unit (chapter 10): the store clock and its steps, the store mode, the ALARM input, fire zones, Evacuation with
its stream, Begin Service and Restore. -/

namespace Sys2Proof.Machine

/-! ## The computed mode and the pointer (R167, R168) -/

/-- The latest step at or before a second of the day, or else the latest of the day (R168). -/
def latestStep (ss : List Step) (second : Nat) : Option Step :=
  match (ss.filter fun s => s.time ≤ second).getLast? with
  | some s => some s
  | none => ss.getLast?

/-- The computed mode (R168). -/
def Part.computedMode (p : Part) : StoreMode :=
  if p.day.clockSet then
    match latestStep p.steps p.day.second with
    | some s => s.action.mode
    | none => .closed
  else .closed

/-- The step a pointer set afresh names (R167). -/
def Part.freshPointer (p : Part) : Option Nat :=
  if p.day.clockSet then
    match p.steps.find? fun s => p.day.second < s.time with
    | some s => some s.number
    | none => p.steps.head?.map fun s => s.number
  else none

/-- The next-step pointer set afresh (R167). -/
def Part.setPointer (p : Part) : Part := { p with day := { p.day with pointer := p.freshPointer } }

/-- The step after step `n`, from the last to the first (R167). -/
def Part.stepAfter (p : Part) (n : Nat) : Option Nat :=
  match p.steps.find? fun s => n < s.number with
  | some s => some s.number
  | none => p.steps.head?.map fun s => s.number

/-! ## The store mode (R168) -/

/-- The store mode changed: the condition is raised and each neighbour acts on the new mode (R168; R81 to R88, R164). -/
def Part.setStoreMode (p : Part) (m : StoreMode) : Part :=
  let old := p.day.mode
  if old = m then p
  else
    let wanted := p.wantedSet
    let p := { p with day := { p.day with mode := m } }
    let p := p.raise .storeMode [byteOf (storeModeCode old), byteOf (storeModeCode m)]
    let p := p.chainOnStoreMode wanted
    if m = .evacuation then p.cancelCalls else p

/-! ## The evacuation stream (R176) -/

/-- The item the stream hands in. -/
def Part.streamItem (p : Part) (pattern : Bool) : Item :=
  { content := if pattern then .pattern p.evacCode else .phrase p.evacCue
    source := .stream, repeats := p.evacRepeats, enqueued := p.cycle }

/-- One stream item handed to every enabled post; the next kind becomes the other and the timer is set to the period (R176). -/
def Part.handStream (p : Part) (pattern : Bool) : Part :=
  let p := p.handInAll p.enabledPosts (p.streamItem pattern)
  { p with fire := { p.fire with nextIsPattern := !pattern, streamTimer := p.evacPeriod * 50 } }

/-- The stream starts with a Phrase item (R176). -/
def Part.startStream (p : Part) : Part :=
  ({ p with fire := { p.fire with streamOn := true } }).handStream false

/-- The stream's timer expires (R176). -/
def Part.streamExpires (p : Part) : Part := p.handStream p.fire.nextIsPattern

/-- The stream's timer at a cycle start; one commanded ahead of it has restarted already (R176, log 4). -/
def Part.streamTick (p : Part) : Part :=
  if p.fire.streamOn && !p.ahead.contains .stream then
    if p.fire.streamTimer ≤ 1 then p.streamExpires
    else { p with fire := { p.fire with streamTimer := p.fire.streamTimer - 1 } }
  else p

/-- The stream stops, and its items leave the posts (R177). A stopped timer of the stream is 0 (DESIGN CHOICE, log 53). -/
def Part.stopStream (p : Part) : Part :=
  ({ p with fire := { p.fire with streamOn := false, streamTimer := 0 } }).removeSource .stream

/-! ## Evacuation (R174, R175) -/

/-- Compartment `c` marked affected: the Shutter Sequencer is told of one not affected before (R175, R131). -/
def Part.affect (p : Part) (c : Nat) : Part :=
  if p.fire.affected.contains c then p
  else
    ({ p with fire := { p.fire with affected := insertRising c p.fire.affected } }).startSeq c .evacuation

/-- The compartments of a zone's mask marked affected (R175). -/
def Part.affectZone (p : Part) (z : Nat) : Part := (p.zoneCompartments z).foldl Part.affect p

/-- Evacuation entered with a cause, for some zones (R169, R174). -/
def Part.enterEvacuation (p : Part) (cause : FireCause) (zones : List Nat) : Part :=
  let p := { p with fire := { p.fire with
    cause := some cause, startCycle := some p.cycle, endCycle := none, streamCompleted := 0, streamLost := 0 } }
  let p := p.setStoreMode .evacuation
  (zones.foldl Part.affectZone p).startStream

/-- The debounced ALARM has become Asserted (R172, R174). -/
def Part.alarmRises (p : Part) : Part :=
  let p := ({ p with day := { p.day with alarm := true, alarmRun := 0 } }).raise .alarmInput []
  if p.day.mode = .unloaded || p.day.mode = .evacuation then p else p.enterEvacuation .alarm []

/-- The debounced ALARM has become Released (R172). -/
def Part.alarmFalls (p : Part) : Part :=
  ({ p with day := { p.day with alarm := false, alarmRun := 0 } }).raiseEdge .alarmInput true []

/-- A sample of the ALARM input (R172). -/
def Part.alarmSample (p : Part) (active : Bool) : Part :=
  let d := p.day
  if active = d.alarm then { p with day := { d with alarmRun := 0 } }
  else if !d.alarm && 2 ≤ d.alarmRun then p.alarmRises
  else if d.alarm && 24 ≤ d.alarmRun then p.alarmFalls
  else { p with day := { d with alarmRun := d.alarmRun + 1 } }

/-- Whether a number is a zone (R173). -/
def isZone (z : Nat) : Bool := 1 ≤ z && z ≤ 16

/-- What a newly active zone brings, by the store mode (R174, R175). -/
def Part.actOnZone (p : Part) (z : Nat) : Part :=
  if p.day.mode = .unloaded then p
  else if p.day.mode = .evacuation then p.affectZone z
  else p.enterEvacuation (.report z) [z]

/-- A zone alarm taken by the Day Unit (R173 to R175). -/
def Part.zoneAlarm (p : Part) (z : Nat) : Part :=
  if p.fire.zones.contains z then p
  else (({ p with fire := { p.fire with zones := insertRising z p.fire.zones } }).raise .fireZone []).actOnZone z

/-- A zone clear taken by the Day Unit (R173). -/
def Part.zoneClear (p : Part) (z : Nat) : Part :=
  if p.fire.zones.contains z then
    ({ p with fire := { p.fire with zones := p.fire.zones.filter fun x => x ≠ z } }).raiseEdge .fireZone true []
  else p

/-! ## Fire panel stations (R173) -/

/-- The silence count of a fire panel station, 0 where none is kept. -/
def Part.panelSilence (p : Part) (st : Station) : Nat :=
  ((p.fire.panels.find? fun x => x.1 = st).map fun x => x.2).getD 0

/-- The silence count of a fire panel station set. -/
def Part.setPanel (p : Part) (st : Station) (n : Nat) : Part :=
  { p with fire := { p.fire with panels := p.fire.panels.filter (fun x => x.1 ≠ st) ++ [(st, n)] } }

/-- A fire panel station's silence count reaches 50 (R173). -/
def Part.panelGoesLost (p : Part) (st : Station) : Part := (p.setPanel st 50).fault .firePanelLost st

/-- A fire panel station's silence count at a cycle start (R173). -/
def Part.panelTick (p : Part) (st : Station) : Part :=
  let n := p.panelSilence st
  if 50 ≤ n then p else if n = 49 then p.panelGoesLost st else p.setPanel st (n + 1)

/-- A cycle start for every fire panel station of the Roles table. -/
def Part.panelsTick (p : Part) : Part := p.panelStations.eraseDups.foldl Part.panelTick p

/-- The counts after a commit of the Roles table: kept for a station still named, 0 for one newly named (R173). -/
def Part.panelsCommitted (p : Part) : Part :=
  { p with fire := { p.fire with panels := p.fire.panels.filter fun x => p.panelStations.contains x.1 } }

/-! ## Steps (R167, R170) -/

/-- The requests a step hands to its neighbours (R170). -/
def Part.stepRequests (p : Part) (s : Step) : Part :=
  match s.action with
  | .opening =>
    let p := p.openWell.raiseShutters
    if s.start && p.chain.mode ≠ .tripped then { p with chain := { p.chain with armed := true } } else p
  | .warning => p
  | .lastCall => p
  | .closing => p
  | .night => p.lowerNight

/-- The phrase of a step: one Closing item to each post of its mask (R170). -/
def Part.stepPhrase (p : Part) (s : Step) : Part :=
  if s.cue = 0 then p
  else p.handInAll (inMask 16 s.posts)
    { content := .phrase s.cue, source := .step s.number, repeats := s.repeats, enqueued := p.cycle }

/-- A step taken (R170). -/
def Part.takeStep (p : Part) (s : Step) : Part :=
  let p := { p with day := { p.day with
    lastStep := some s.number
    steps := modifyAt p.day.steps s.number fun _ => { cycle := some p.cycle } } }
  ((p.setStoreMode s.action.mode).stepRequests s).stepPhrase s

/-- The step reached by an advance of the clock, if any: the one the pointer names, when its time has come (R167). -/
def Part.reached (p : Part) : Option Step :=
  match p.day.pointer with
  | some n => p.steps.find? fun s => s.number = n && s.time = p.day.second
  | none => none

/-- A step reached: the pointer moves on, and the step is taken or passed by the store mode (R167). -/
def Part.reachStep (p : Part) : Part :=
  match p.reached with
  | none => p
  | some s =>
    let p := { p with day := { p.day with pointer := p.stepAfter s.number } }
    if p.day.mode = .unloaded || p.day.mode = .evacuation then p else p.takeStep s

/-- The second count advances (R165). -/
def Part.clockAdvances (p : Part) : Part :=
  ({ p with day := { p.day with sub := 0, second := (p.day.second + 1) % 86400 } }).reachStep

/-- The store clock at a cycle start; an advance commanded ahead of it has been made already (R165, log 4). -/
def Part.clockTick (p : Part) : Part :=
  if p.day.clockSet && !p.ahead.contains .clock then
    if 49 ≤ p.day.sub then p.clockAdvances else { p with day := { p.day with sub := p.day.sub + 1 } }
  else p

/-! ## Management orders to the Day Unit -/

/-- The five tables Begin Service asks for (R169). -/
def serviceTables : List Nat := [tRoles, tChain, tPlanes, tPosts, tDay]

/-- The lowest of a set of zones (R169). -/
def lowestZone : List Nat → Option Nat
  | [] => none
  | z :: zs => some (zs.foldl min z)

/-- A Begin Service order (R169). The masks of the active zones are read from the Zone Table in force at the order (DESIGN CHOICE, log
58). -/
def Part.takeBeginService (p : Part) : Part × ManageResult :=
  if p.day.mode ≠ .unloaded then (p, .done)
  else if !serviceTables.all p.isCommitted then (p, .refusedState)
  else
    match lowestZone p.fire.zones with
    | some z => (p.enterEvacuation (.report z) p.fire.zones, .done)
    | none => if p.day.alarm then (p.enterEvacuation .alarm [], .done) else (p.setStoreMode p.computedMode, .done)

/-- A Set Clock order (R165, R167, R168). -/
def Part.takeSetClock (p : Part) (second : Nat) : Part × ManageResult :=
  if 86400 ≤ second then (p, .refusedRange)
  else
    let p := ({ p with day := { p.day with clockSet := true, second, sub := 0 } }).setPointer
    if p.day.mode = .unloaded || p.day.mode = .evacuation then (p, .done) else (p.setStoreMode p.computedMode, .done)

/-- The shutters and slides at a Restore into a mode (R135, R177). -/
def Part.restoreWell (p : Part) (m : StoreMode) : Part :=
  if m = .trading || m = .warning then p.openWell.raiseShutters else p.completeClosure

/-- A Restore order (R177). -/
def Part.takeRestore (p : Part) : Part × ManageResult :=
  if p.day.mode = .evacuation && !p.day.alarm && p.fire.zones.isEmpty then
    let m := p.computedMode
    let p := (p.setStoreMode m).stopStream
    let p := { p with fire := { p.fire with affected := [], endCycle := some p.cycle } }
    (p.restoreWell m, .done)
  else (p, .refusedState)

end Sys2Proof.Machine
end

