-- ==== Sys2Proof/Machine/Commit.lean ====
section
/-! DEFINITION. Load and Commit (R181, R182): the tests each table's owner makes, and what a successful commit brings. -/

namespace Sys2Proof.Machine

/-! ## Entries by number -/

/-- The entry numbers of a table with that id, as long as the table in force (12.7). -/
def entryNumbers (id : Nat) : List Nat := (List.range (tableIn powerUpTables id).length).map fun i => i + entryLow id

/-- The last entry number of a table. -/
def entryHigh (id : Nat) : Nat := (tableIn powerUpTables id).length + entryLow id - 1

/-- Whether a number names a table (section 11.3). -/
def isTable (id : Nat) : Bool := 1 ≤ id && id ≤ 14

/-- Whether no number occurs twice in a list. -/
def allDistinct (xs : List Nat) : Bool :=
  match xs with
  | [] => true
  | x :: rest => !rest.contains x && allDistinct rest

/-- A number within a range. -/
def between (lo n hi : Nat) : Bool := lo ≤ n && n ≤ hi

/-- A station that a table may name: 1 to 127, other than the own number. -/
def Part.namesStation (p : Part) (st : Nat) : Bool := between 1 st 127 && st ≠ p.own

/-! ## Stations named by the tables in force -/

def planeStations (t : Table) : List Nat := (planeNumbers.map fun k => (planeEntryOf t k).station).filter fun s => s ≠ 0
def shutterStations (t : Table) : List Nat := (shutterNumbers.map fun k => (shutterEntryOf t k).station).filter fun s => s ≠ 0
def postStations (t : Table) : List Nat := (postNumbers.map fun k => (postEntryOf t k).station).filter fun s => s ≠ 0

/-- Whether two lists of stations share one. -/
def sharesStation (a b : List Nat) : Bool := a.any b.contains

/-! ## Tests -/

/-- The first test that fails, in order, gives the result; none when all pass. -/
def firstFailure : List (Bool × ManageResult) → Option ManageResult
  | [] => none
  | (ok, r) :: rest => if ok then firstFailure rest else some r

/-- The values of a Pass Rule entry have codes (R190; a station argument above 127 counts among them, log 28). -/
def passEntryCoded (e : List Byte) : Bool :=
  byteAt e 0 = 0 ||
    (byteAt e 0 ≤ 6 && byteAt e 1 < 128 && byteAt e 2 ≤ 128 && byteAt e 4 ≤ 16 && (byteAt e 0 ≠ 5 || byteAt e 6 < 128))

/-- The argument of a Pass Rule entry fits its action (R44). -/
def Part.passEntryFits (p : Part) (e : List Byte) : Bool :=
  match actionOf e with
  | some (.copy a) => a.isSome
  | some (.take a) => a.isSome
  | some (.redirect d) => d ≠ 0 && d ≠ p.own
  | some (.hold c) => c.isSome
  | some .pass => true
  | some .drop => true
  | none => true

def Part.testPass (p : Part) (t : Table) : Option ManageResult :=
  firstFailure [(t.all passEntryCoded, .refusedRange), (t.all p.passEntryFits, .refusedCheck)]

/-- The four entries of the Roles table as lists of stations. -/
def roleLists (t : Table) : List (List Nat) := [1, 2, 3, 4].map (rolesEntry t)

/-- No station stands in two of the lists (R16). -/
def disjointLists : List (List Nat) → Bool
  | [] => true
  | x :: rest => rest.all (fun y => !sharesStation x y) && disjointLists rest

def Part.testRoles (p : Part) (t : Table) : Option ManageResult :=
  firstFailure
    [((roleLists t).all (fun l => l.all fun s => s ≤ 127), .refusedRange),
     ((roleLists t).all (fun l => l.all fun s => s ≠ p.own) && disjointLists (roleLists t), .refusedCheck)]

/-- The chain is not in a mode that moves, the record's speed is 0, and there is no Evacuation (R74, R115). -/
def Part.chainQuiet (p : Part) : Bool :=
  p.chain.mode ≠ .running && p.chain.mode ≠ .lastCall && p.chain.mode ≠ .stopping && p.chain.record.v = 0 &&
    p.day.mode ≠ .evacuation

/-- Every parameter lies in its range (R73). -/
def ChainParams.inRange (c : ChainParams) : Bool :=
  between 8000 c.loop 131071 && between 4 c.cabins 64 && between 500 c.body 3980 && c.margin ≤ 200 &&
    between 150 c.runLimit 500 && between 20 c.creep 150 && between 100 c.decel 2000 && c.stopTol ≤ 100 &&
    between 20 c.jumpTol 500 && between 5 c.clearing 120

def Part.testChain (p : Part) (t : Table) : Option ManageResult :=
  let c := chainParamsOf t
  firstFailure
    [(p.chainQuiet, .refusedState), (c.inRange, .refusedRange), (chainChecks c (p.table tPlanes), .refusedCheck)]

/-- The values of a Plane Table entry in use lie in their ranges (R114, R115). -/
def Part.planeInRange (p : Part) (e : PlaneEntry) : Bool :=
  !e.inUse || (p.namesStation e.station && e.coordinate ≤ 131070 && e.floor ≤ 9 && between 1 e.travel 60)

def Part.testPlanes (p : Part) (t : Table) : Option ManageResult :=
  let es := planeNumbers.map (planeEntryOf t)
  firstFailure
    [(p.chainQuiet, .refusedState),
     (es.all p.planeInRange, .refusedRange),
     (es.all (fun e => e.inUse || !e.flagEnabled), .refusedCheck),
     (!sharesStation (planeStations t) (shutterStations (p.table tShutters)), .refusedCheck),
     (planeChecks p.chainParams t, .refusedCheck)]

/-- The values of a Floor Shutter Table entry in use lie in their ranges (R126, R127). -/
def Part.shutterInRange (p : Part) (e : ShutterEntry) : Bool :=
  !e.inUse || (p.namesStation e.station && between 1 e.compartment 8 && between 1 e.group 6 && between 1 e.travel 60)

/-- In no compartment does a night-flagged shutter stand in the same or a later order group than one whose night flag is clear
(R127). -/
def nightFirst (es : List ShutterEntry) : Bool :=
  es.all fun a => es.all fun b =>
    !(a.inUse && b.inUse && a.compartment = b.compartment && a.night && !b.night && b.group ≤ a.group)

def Part.testShutters (p : Part) (t : Table) : Option ManageResult :=
  let es := shutterNumbers.map (shutterEntryOf t)
  firstFailure
    [(p.day.mode ≠ .evacuation && p.sequences.all fun s => s.state ≠ .sequencing, .refusedState),
     (between 10 (escapeHoldOf t) 600 && es.all p.shutterInRange, .refusedRange),
     (allDistinct (shutterStations t) && !sharesStation (shutterStations t) (planeStations (p.table tPlanes)) &&
       nightFirst es, .refusedCheck)]

/-- The values of a Post table entry in use lie in their ranges (R137). -/
def Part.postInRange (p : Part) (e : PostEntry) : Bool := !e.inUse || (p.namesStation e.station && e.floor ≤ 9)

def Part.testPosts (p : Part) (t : Table) : Option ManageResult :=
  let es := postNumbers.map (postEntryOf t)
  firstFailure
    [(p.day.mode ≠ .evacuation, .refusedState),
     (es.all p.postInRange, .refusedRange),
     (allDistinct (postStations t) && (es.all fun e => e.inUse || !e.flagEnabled) &&
       !sharesStation (postStations t) (planeStations (p.table tPlanes)) &&
       !sharesStation (postStations t) (shutterStations (p.table tShutters)), .refusedCheck)]

/-- The bell codes 1 to 48. -/
def bellCodes : List Nat := (List.range 48).map (· + 1)

/-- The values of a Bell Code Table entry lie in their ranges; a loaded flag other than 0 and 1 has no code (R154, R190). -/
def bellInRange (e : BellEntry) : Bool :=
  e.loaded = 0 ||
    (e.loaded = 1 && e.divider ≤ 7 && between 1 e.repeats 15 && e.escCode ≤ 48 && (e.escCode = 0 || between 1 e.escPost 16))

def testBells (t : Table) : Option ManageResult :=
  let es := bellCodes.map (bellEntryOf t)
  firstFailure
    [(es.all bellInRange, .refusedRange),
     (es.all (fun e => e.loaded = 0 || e.escCode = 0 || (bellEntryOf t e.escCode).loaded = 1), .refusedCheck)]

def testPhrases (t : Table) : Option ManageResult :=
  firstFailure [(t.all fun e => byteAt e 0 ≤ 60, .refusedRange)]

/-- The values of a Closing Schedule entry lie in their ranges (R166, R190). -/
def stepInRange (e : List Byte) : Bool :=
  byteAt e 0 = 0 ||
    (byteAt e 0 ≤ 5 && tripleAt e 1 < 86400 && byteAt e 4 ≤ 64 && (byteAt e 4 = 0 || between 1 (byteAt e 7) 15) &&
      (byteAt e 0 = 1 || !bitOf (byteAt e 8) 0))

/-- The entries in use come before the unused ones and have strictly rising times (R166). -/
def stepsRise : List (List Byte) → Bool
  | a :: b :: rest => (byteAt b 0 = 0 || (byteAt a 0 ≠ 0 && tripleAt a 1 < tripleAt b 1)) && stepsRise (b :: rest)
  | _ => true

def testSchedule (t : Table) : Option ManageResult :=
  firstFailure [(t.all stepInRange, .refusedRange), (stepsRise t, .refusedCheck)]

def testDay (t : Table) : Option ManageResult :=
  let e := entryOf tDay t 0
  firstFailure
    [(between 10 (byteAt e 0) 120 && between 1 (byteAt e 1) 64 && between 1 (byteAt e 2) 48 && between 1 (byteAt e 3) 15,
      .refusedRange)]

def testLine (t : Table) : Option ManageResult :=
  let e := entryOf tLine t 0
  firstFailure
    [(byteAt e 0 ≤ 3 && between 5 (byteAt e 1) 250 && between 2 (byteAt e 2) 250 && between 10 (byteAt e 3) 250 &&
      between 1 (byteAt e 4) 7 && between 1 (byteAt e 5) 15 && byteAt e 6 ≤ 1, .refusedRange)]

/-- The stations of the subscriber places of a table 14. -/
def subscriberStations (t : Table) : List Nat :=
  (placeNumbers.map fun i => byteAt (entryOf tSubs t i) 0).filter fun s => s ≠ 0

/-- The stations of the Reset List of a table 14. -/
def resetStations (t : Table) : List Nat :=
  ((List.range 4).map fun i => byteAt (entryOf tSubs t 0) i).filter fun s => s ≠ 0

def Part.testSubs (p : Part) (t : Table) : Option ManageResult :=
  firstFailure
    [((subscriberStations t ++ resetStations t).all p.namesStation, .refusedRange),
     (allDistinct (subscriberStations t) && allDistinct (resetStations t), .refusedCheck)]

/-- The tests of a table's owner on a pending copy (R16, R44, R74, R111, R115, R127, R128, R137, R151, R154, R166, R171, R182). -/
def Part.commitTest (p : Part) (id : Nat) (t : Table) : Option ManageResult :=
  match id with
  | 2 => p.testPass t
  | 3 => p.testRoles t
  | 4 => p.testChain t
  | 5 => p.testPlanes t
  | 6 => p.testShutters t
  | 8 => p.testPosts t
  | 9 => testBells t
  | 10 => testPhrases t
  | 11 => testSchedule t
  | 12 => testDay t
  | 13 => testLine t
  | 14 => p.testSubs t
  | _ => none

/-! ## Effects -/

/-- A table put in force in place of the one that was there, its pending copy removed, its commit recorded (R182). -/
def Part.install (p : Part) (id : Nat) (t : Table) : Part :=
  { p with
    tables := modifyAt p.tables id fun _ => t
    copies := modifyAt p.copies id fun _ => none
    committed := modifyAt p.committed id fun _ => true }

/-- A commit of the Chain Parameters table (R74, R101, R112). -/
def Part.chainCommitted (p : Part) : Part :=
  let p := { p with chain := { p.chain with record := { p.chain.record with misses := 0 } } }
  (p.setFreshness .unknown).refreshPark

/-- What the commit of a table brings, given the table before it and the wanted park set before it (R74, R116, R127, R138, R166,
R173). -/
def Part.committedEffect (p : Part) (id : Nat) (old : Table) (wanted : List Nat) : Part :=
  match id with
  | 3 => p.panelsCommitted
  | 4 => p.chainCommitted
  | 5 => p.planesCommitted old wanted
  | 6 => p.shuttersCommitted old
  | 8 => p.postsCommitted old
  | 11 => p.setPointer
  | _ => p

/-- A Commit order (R182). -/
def Part.takeCommit (p : Part) (id : Nat) : Part × ManageResult :=
  if !isTable id then (p, .refusedRange)
  else
    match p.copies.getD (id - 1) none with
    | none => (p, .refusedState)
    | some t =>
      match p.commitTest id t with
      | some r => (p, r)
      | none => ((p.install id t).committedEffect id (p.table id) p.wantedSet, .done)

/-! ## Load (R181) -/

/-- The whole entries of a run of bytes. -/
def wholeEntries (size : Nat) (data : List Byte) : List (List Byte) :=
  (List.range (data.length / size)).map fun i => (data.drop (i * size)).take size

/-- A run of entries written over a table from a place on. -/
def writeRun (t : Table) (place : Nat) (run : List (List Byte)) : Table :=
  t.take place ++ run ++ t.drop (place + run.length)

/-- A Load order (R181). The run must lie within the table's entry numbers (log 28). -/
def Part.takeLoad (p : Part) (id first : Nat) (data : List Byte) : Part × ManageResult :=
  if !isTable id then (p, .refusedRange)
  else
    let run := wholeEntries (entrySize id) data
    if first < entryLow id || entryHigh id + 1 < first + run.length then (p, .refusedRange)
    else
      let t := (p.copies.getD (id - 1) none).getD (p.table id)
      ({ p with copies := modifyAt p.copies id fun _ => some (writeRun t (first - entryLow id) run) }, .done)

end Sys2Proof.Machine
end

