-- ==== Sys2Proof/Machine/ReadData.lean ====
section
/-! DEFINITION. The objects a Read names and the data of each (R183, R190, 12.5): fields in the order their chapters list them, each
in the fewest whole bytes. The numbering of entries and the codes no table gives are DESIGN CHOICES (log 14, log 15). -/

namespace Sys2Proof.Machine

/-! ## Codes. Where 12.6 gives a field no codes, the values of one that may be absent count from 1, those of another from 0 (log 15). -/

/-- An optional value coded, 0 when absent (R190). -/
def optCode {α : Type} (code : α → Nat) (x : Option α) : Nat := (x.map code).getD 0

/-- A one-byte field. -/
def one (n : Nat) : List Byte := [byteOf n]

/-- A one-byte flag. -/
def flag (b : Bool) : List Byte := [flagByte b]

def resultCode : OrderResult → Nat
  | .done => 1
  | .refused => 2
  | .rejected => 3
  | .noReply => 4
  | .unroutable => 5
  | .halted => 6
  | .haltedAccepted => 7

def lampCode : Bool → Nat
  | true => 1
  | false => 2

def slideMoveCode : SlideMove → Nat
  | .close => 1
  | .openMove => 2

def shutterMoveCode : ShutterMove → Nat
  | .toPause => 1
  | .full => 2
  | .raise => 3

def sequenceCode : SequenceState → Nat
  | .idle => 0
  | .sequencing => 1
  | .complete => 2

def causeCode : SequenceCause → Nat
  | .night => 1
  | .evacuation => 2
  | .drop => 3

def phaseCode : OrderPhase → Nat
  | .none => 0
  | .pending => 1
  | .inChannel => 2
  | .confirmed => 3

def outcomeCode : ItemOutcome → Nat
  | .completed => 1
  | .evicted => 2
  | .refused => 3
  | .discarded => 4

def channelStateCode : ChannelState → Nat
  | .idle => 0
  | .sending => 1
  | .awaiting => 2
  | .halting => 3

/-- The agent that owns a record (R57), coded as in the Pass Rule Table (12.7). -/
def ownerCode : RecordId → Nat
  | .lamp => 1
  | .slide _ => 2
  | .shutter _ => 2
  | .post _ => 3

/-- The number of a record among those of its kind, 0 for the lamp order. -/
def recordNumber : RecordId → Nat
  | .lamp => 0
  | .slide k => k
  | .shutter k => k
  | .post k => k

def routeCode : Route → Nat
  | .none => 0
  | .port .n => 1
  | .port .s => 2
  | .port .w => 3
  | .flood => 4

def holdConditionCode : HoldCondition → Nat
  | .chainAtRest => 1
  | .notEvacuation => 2
  | .tradingHours => 3

/-- A set of ports as a mask (R190): bit 0 for N, bit 1 for S, bit 2 for W, the ports' codes of 12.5. No rule gives the bits of such a set
(DESIGN CHOICE, log 76). -/
def portMask (ps : List PortId) : Nat := ps.foldl (fun m q => m ||| 2 ^ portCode q) 0

/-- A signed three-byte field in two's complement: 12.6 codes no signed quantity, and the travel to go of a plan is the one that is read
(DESIGN CHOICE, log 61). -/
def signedTriple (n : Int) : List Byte := tripleOf (n % 16777216).toNat

/-! ## Records -/

def Counters.bytes (c : Counters) : List Byte :=
  pairOf c.received ++ pairOf c.overrun ++ pairOf c.badCheck ++ pairOf c.badForm ++ pairOf c.unroutable ++ pairOf c.ruleDrop ++
    pairOf c.aged ++ pairOf c.gated ++ pairOf c.localRoute ++ pairOf c.holdFull ++ pairOf c.flushed

/-- The training count as it is read: 0 in every state but Training (R18). -/
def Port.trainingRead (x : Port) : Nat := if x.state = .training then x.training else 0

/-- A port: counters, state, training count, silence count, free slots, and for Port W the cooldown count (R30). -/
def Port.bytes (x : Port) : List Byte :=
  x.counters.bytes ++ one (portStateCode x.state) ++ one x.trainingRead ++ one x.silence ++ one x.free

/-- The chain record (R75). -/
def ChainRecord.bytes (r : ChainRecord) : List Byte :=
  tripleOf r.x ++ pairOf r.v ++ one (freshnessCode r.freshness) ++ one r.misses ++ one (optCode driveStateCode r.echo) ++
    flag r.edge ++ pairOf r.lastReport

/-- The staged permit (R94). -/
def Permit.bytes (x : Permit) : List Byte := one (stageCode x.stage) ++ tripleOf (x.target.getD 0) ++ one (driveModeCode x.mode)

/-- The stage of the plan: that of the plan adopted, in Stopping before a plan is adopted that of the request (R85), else absent. -/
def Chain.planStage (c : Chain) : Stage :=
  match c.plan with
  | some pl => pl.stage
  | none => if c.mode = .stopping then c.stopStage else .none

/-- The plan, with the re-plan count (R85). -/
def Chain.planBytes (c : Chain) : List Byte :=
  let (target, travel) := match c.plan with
    | some pl => (pl.target, pl.travel)
    | none => (0, 0)
  one (stageCode c.planStage) ++ tripleOf target ++ signedTriple travel ++ one c.replans

/-- The drive mode with the park set, the closable set and the unclosable marks (R83), the start-armed flag (R81) and the lamps (R92,
R93). -/
def Part.modeBytes (p : Part) : List Byte :=
  let c := p.chain
  one (driveModeCode c.mode) ++ pairOf (maskOf c.parkSet) ++ pairOf (maskOf p.closable) ++ pairOf (maskOf c.unclosable) ++
    flag c.armed ++ one (optCode lampCode c.lamp) ++ one (optCode resultCode c.lampResult)

/-- A slide record (R117). -/
def SlideRecord.bytes (r : SlideRecord) : List Byte :=
  one (slideStateCode r.state) ++ one (optCode slideMoveCode r.move) ++ one (optCode slidePosCode r.last) ++ pairOf r.timer ++
    one r.silence

/-- A floor shutter record (R129). -/
def ShutterRecord.bytes (r : ShutterRecord) : List Byte :=
  one (shutterStateCode r.state) ++ one (optCode shutterMoveCode r.move) ++ one (optCode shutterPosCode r.last) ++
    pairOf r.timer ++ one r.silence

/-- A lowering sequence (section 7.7). -/
def LoweringSequence.bytes (s : LoweringSequence) : List Byte :=
  one (sequenceCode s.state) ++ one (optCode causeCode s.cause) ++ one s.group ++ pairOf s.since ++ pairOf s.timer ++
    flag s.dropped

/-- The number a source carries: call id, step, or 0; its priority says which (R141). -/
def ItemSource.number : ItemSource → Nat
  | .call id => id
  | .step k => k
  | .stream => 0
  | .test => 0

/-- An item (R141): kind, bell code, phrase cue, priority, source, repeats, enqueue cycle. -/
def Item.bytes (it : Item) : List Byte :=
  (match it.content with
    | .pattern code => one 0 ++ one code ++ one 0
    | .phrase cue => one 1 ++ one 0 ++ one cue) ++
    one (3 - it.rank) ++ one it.source.number ++ one it.repeats ++ pairOf it.enqueued

/-- A post record with its three counters and its last test outcome (R139, R142), and last the floor of its entry, which R137 has carried in
readings (DESIGN CHOICE, log 60). -/
def Post.bytes (r : Post) (c : PostCounters) (floor : Nat) : List Byte :=
  one (postStateCode r.state) ++ ((r.current.map Item.bytes).getD (List.replicate 8 0#8)) ++ one (phaseCode r.phase) ++
    flag r.preempt ++ pairOf r.deadline ++ one r.silence ++ flag r.onHand ++ pairOf c.evicted ++ pairOf c.refused ++
    pairOf c.overdue ++ one (optCode outcomeCode r.lastTest) ++ one floor

/-- A call (R155). -/
def Call.bytes (c : Call) : List Byte :=
  one c.id ++ one c.origin ++ one (clsCode c.replyClass) ++ flag c.replyToggle ++ one c.originalCode ++ one c.code ++
    pairOf c.posts.toNat ++ one c.given ++ one c.remaining ++ pairOf c.interval ++ pairOf c.nextRound ++ flag c.escalated ++
    one c.completed ++ one c.lost

/-- The store clock, pointer, store mode, computed mode and last step taken (R165 to R170). -/
def Part.dayBytes (p : Part) : List Byte :=
  tripleOf p.day.second ++ one p.day.sub ++ flag p.day.clockSet ++ one (p.day.pointer.getD 0) ++
    one (storeModeCode p.day.mode) ++ one (storeModeCode p.computedMode) ++ one (p.day.lastStep.getD 0)

/-- The cause of an evacuation, which may be absent: Fire Report 1 with its zone, ALARM 2 (R174; DESIGN CHOICE, log 15). -/
def fireCauseBytes : Option FireCause → List Byte
  | some (.report z) => one 1 ++ one z
  | some .alarm => one 2 ++ one 0
  | none => one 0 ++ one 0

/-- The fire zone record with the debounced ALARM state and its run count (R172, R174). -/
def Part.fireBytes (p : Part) : List Byte :=
  let f := p.fire
  pairOf (maskOf f.zones) ++ one (maskOf f.affected) ++ fireCauseBytes f.cause ++
    pairOf (f.startCycle.getD 0) ++ pairOf (f.endCycle.getD 0) ++ pairOf f.streamCompleted ++ pairOf f.streamLost ++
    flag p.day.alarm ++ one p.day.alarmRun

/-- A subscriber place with its notice sequence (R184). -/
def Part.placeBytes (p : Part) (i : Nat) : List Byte :=
  let pl := p.place i
  one pl.station ++ pairOf pl.conditions ++ one pl.falling ++ one (p.notices.sequences.getD (i - 1) 0)

/-- The floor of a station's planes, which the reading of the fault record carries (R114): that of the lowest plane in use that names the
station, 0 where none does (DESIGN CHOICE, log 50). -/
def Part.stationFloor (p : Part) (st : Station) : Nat := ((p.planesAt st).head?.map fun k => (p.plane k).floor).getD 0

/-- The fault record (R185), and last the floor of the first fault's station (R114; DESIGN CHOICE, log 50). -/
def Part.faultBytes (p : Part) : List Byte :=
  match p.faults.first with
  | some e => one (faultNumber e.code) ++ pairOf e.cycle ++ one e.station ++ one p.faults.further ++ one (p.stationFloor e.station)
  | none => List.replicate 4 0#8 ++ one p.faults.further ++ one 0

/-- A channel record (section 4.4). A channel that has held no order since power-up or a warm reset sends every field of the order as 0,
as R190 has absent fields sent (R72; log 39). The order's payload is sent at its own length, nothing where the order has none, since R190
gives a run of bytes no width (DESIGN CHOICE, log 77). -/
def Channel.bytes (c : Channel) : List Byte :=
  if !c.busy && c.result.isNone then List.replicate 12 0#8
  else
    one (channelStateCode c.state) ++ one (ownerCode c.record) ++ one (recordNumber c.record) ++ one c.target ++
      orderPayload c.order ++ one (clsCode c.cls) ++ flag c.toggle ++ one c.triesLeft ++ flag c.transmitted ++ one c.timer ++
      flag c.retryDue ++ one (optCode resultCode c.result)

/-- A pending order: owner, record, target, code, class and age in cycles (R57). -/
def Part.orderBytes (p : Part) (o : PendingOrder) : List Byte :=
  one (ownerCode o.record) ++ one (recordNumber o.record) ++ one o.target ++ one (orderCode o.order) ++ one (clsCode o.cls) ++
    pairOf (cyclesSince p.cycle o.placed)

/-- The feasibility record: Yes, No or Not known, feasible arc, target phase, chosen run (R112). -/
def Feasibility.bytes : Feasibility → List Byte
  | .yesEmpty => one 0 ++ pairOf 0 ++ pairOf 0 ++ pairOf 0 ++ pairOf 0
  | .yes a b phase => one 0 ++ pairOf a ++ pairOf b ++ pairOf phase ++ pairOf 0
  | .no run => one 1 ++ pairOf 0 ++ pairOf 0 ++ pairOf 0 ++ pairOf (maskOf run)
  | .notKnown => one 2 ++ pairOf 0 ++ pairOf 0 ++ pairOf 0 ++ pairOf 0

/-- A Hold List entry (R45). The kept route of a broadcast, the route of the destination 0, has no code in the spec and is sent as Flood
(DESIGN CHOICE, log 62). The frame is sent at its own length (DESIGN CHOICE, log 77). -/
def HoldEntry.bytes (e : HoldEntry) : List Byte :=
  frameBytes e.frame ++ one (portCode e.arrival) ++ one (holdConditionCode e.condition) ++ one (routeCode e.route) ++ one e.age ++
    flag e.eligible ++ one (portMask e.target)

/-- A gate: management setting, closed, evacuation cause, effective (R54). -/
def Part.gateBytes (p : Part) (g : Gate) : List Byte :=
  let (set, cause) := match g with
    | .signal => (p.gates.signalSet, false)
    | .service => (p.gates.serviceSet, decide (p.day.mode = .evacuation))
  flag set ++ flag (p.gateClosed g) ++ flag cause ++ flag (p.gates.effective g)

/-- A step record (R170). -/
def StepRecord.bytes (r : StepRecord) : List Byte := pairOf (r.cycle.getD 0) ++ one r.completed ++ one r.lost

/-- The last plan answer with its request number (R107). -/
def answerBytes (r : PlanRequest) (a : PlanAnswer) : List Byte :=
  pairOf r.number ++
    (match a.outcome with
      | .target x t => one 0 ++ tripleOf x ++ pairOf t
      | .clear => one 1 ++ tripleOf 0 ++ pairOf 0) ++
    pairOf a.stopping ++ pairOf (maskOf a.closable) ++
    (match a.arc with
      | some (s, e, span, phase) => pairOf s ++ pairOf e ++ pairOf span ++ pairOf phase
      | none => pairOf 0 ++ pairOf 0 ++ pairOf 0 ++ pairOf 0) ++
    pairOf (maskOf a.unclosable)

/-- Which of the five tables of Begin Service have been committed, bit 0 the Roles table (R169; the bits are a DESIGN CHOICE, log 76). -/
def Part.committedMask (p : Part) : Nat :=
  (serviceTables.zipIdx.filter fun (id, _) => p.isCommitted id).foldl (fun m (_, i) => m ||| 2 ^ i) 0

/-! ## Objects (12.5) -/

/-- A record that may be absent, as an object with one entry or none. -/
def entryOfRecord {α : Type} (bytes : α → List Byte) (r : Option α) : List (List Byte) :=
  match r with
  | some x => [bytes x]
  | none => []

/-- The records of a numbered list from the first entry named, which must exist; a later one that is absent is sent as 0 in every byte
(log 14). -/
def recordsFrom {α : Type} (bytes : α → List Byte) (size : Nat) (rs : List (Option α)) (first : Nat) : List (List Byte) :=
  match recordAt rs first with
  | some _ => (rs.drop (first - 1)).map fun r => (r.map bytes).getD (List.replicate size 0#8)
  | none => []

/-- The entries of a table from an entry number on. -/
def tableFrom (id : Nat) (t : Table) (first : Nat) : List (List Byte) :=
  if first < entryLow id then [] else t.drop (first - entryLow id)

/-- The records of a list numbered from 1, from a number on. -/
def fromOne (rs : List (List Byte)) (first : Nat) : List (List Byte) := if first = 0 then [] else rs.drop (first - 1)

/-- The items of a post's queue, head first (R139). A reply holds two of them: `first` is the post's number with 32 added for each two items
before the first that is read (DESIGN CHOICE, log 13). -/
def Part.queueFrom (p : Part) (first : Nat) : List (List Byte) :=
  ((p.post (first % 32)).map fun r => (r.queue.drop (2 * (first / 32))).map Item.bytes).getD []

/-- The records of an object from an entry number on, of the objects that are neither a table nor a pending copy (12.5). Object 88 has no
entry, and is Refused-Range, while the Park Computer keeps no answer: before the first one, and after a warm reset. Object 80 lists the
pending orders in the order of their placing, numbered from 1 (DESIGN CHOICES, log 14). -/
def Part.recordsOf (p : Part) (object first : Nat) : List (List Byte) :=
  match object with
  | 64 => [one p.own ++ pairOf p.cycle ++ one p.committedMask].drop first
  | 65 =>
    [p.portN.bytes, p.portS.bytes, p.portW.bytes ++ one p.cooldown,
      p.agent.counters.bytes ++ one 0 ++ one 0 ++ one 0 ++ one p.agent.free].drop first
  | 66 => [p.chain.record.bytes, p.chain.staged.bytes, p.chain.planBytes].drop first
  | 67 => [p.modeBytes].drop first
  | 68 => recordsFrom SlideRecord.bytes 6 p.slides first
  | 69 => recordsFrom ShutterRecord.bytes 6 p.shutters first
  | 70 => fromOne (p.sequences.map LoweringSequence.bytes) first
  | 71 => entryOfRecord (fun r => r.bytes (p.postCount first) (p.postEntry first).floor) (p.post first)
  | 72 => p.queueFrom first
  | 73 => (if first = 0 then [one p.lastCall] else []) ++ (p.calls.filter fun c => first ≤ c.id).map Call.bytes
  | 74 => [p.dayBytes].drop first
  | 75 => [p.fireBytes].drop first
  | 76 => [one (p.claim.getD 0)].drop first
  | 77 => fromOne (placeNumbers.map p.placeBytes) first
  | 78 => [p.faultBytes].drop first
  | 79 => fromOne (p.channels.map Channel.bytes) first
  | 80 => fromOne (p.orders.map p.orderBytes) first
  | 81 => [p.park.feasibility.bytes].drop first
  | 82 => fromOne (p.hold.map HoldEntry.bytes) first
  | 83 => [p.gateBytes .signal, p.gateBytes .service].drop first
  | 84 => fromOne (p.day.steps.map StepRecord.bytes) first
  | 85 => (p.toggles.map flag).drop first
  | 86 =>
    [pairOf p.stale ++ pairOf p.chain.lateAnswers ++ pairOf p.chain.pollOverruns ++ pairOf p.unmatched ++
      pairOf p.notices.lost].drop first
  | 87 => fromOne (p.park.arcStarts.map fun a => pairOf (a.getD 0)) first
  | 88 => (entryOfRecord (fun x => answerBytes x.1 x.2) p.park.lastAnswer).drop first
  | _ => []

/-- The bytes that a reply's data hold (R190). -/
def replyRoom : Nat := 21

/-- The bytes of a record that one entry holds. A record longer than a reply has further entries, each of whole fields: a port is cut
before its last counter, a plan answer before its unclosable planes; a Hold List entry is cut where the reply ends, which is inside a field
only where the held frame alone is longer than a reply. R190 by itself would give such a record no byte, where R30, R45, R107 and R139 have
it read (DESIGN CHOICE, log 13). -/
def entryRoom : Nat → Nat
  | 65 => 20
  | 88 => 20
  | _ => 21

/-- Entry `j` of a record: its bytes from `j` rooms on, as many as an entry holds. -/
def recordEntry (object j : Nat) (bytes : List Byte) : List Byte := (bytes.drop (entryRoom object * j)).take (entryRoom object)

/-- The further entries of the records of an object: `first` is the number of a record with 32 added for each entry of it before. They go
on for as long as the records that follow have such an entry (DESIGN CHOICE, log 13). -/
def Part.furtherEntries (p : Part) (object first : Nat) : List (List Byte) :=
  ((p.recordsOf object (first % 32)).map (recordEntry object (first / 32))).takeWhile fun e => !e.isEmpty

/-- The entries of the records of an object from an entry number on. -/
def Part.recordEntries (p : Part) (object first : Nat) : List (List Byte) :=
  match p.recordsOf object first with
  | [] => p.furtherEntries object first
  | rs => rs.map (recordEntry object 0)

/-- The entries of an object from the first entry named: none where the part does not have the object, or the first entry lies
beyond the object's last. -/
def Part.objectFrom (p : Part) (object first : Nat) : List (List Byte) :=
  if isTable object then tableFrom object (p.table object) first
  else if isTable (object - 32) then
    match p.copies.getD (object - 32 - 1) none with
    | some t => tableFrom (object - 32) t first
    | none => []
  else p.recordEntries object first

/-- The whole entries that fit in a number of bytes, one after another (R190). -/
def wholeFitting (room : Nat) : List (List Byte) → List Byte
  | [] => []
  | e :: rest => if e.length ≤ room then e ++ wholeFitting (room - e.length) rest else []

/-- The data of a Read's reply: as many whole entries as fit in 21 bytes (R190). -/
def readData (es : List (List Byte)) : List Byte := wholeFitting replyRoom es

/-- A Read order's result and data (R183). An empty queue of a post that exists is read as no entries. -/
def Part.readObject (p : Part) (object first : Nat) : ManageResult × List Byte :=
  match p.objectFrom object first with
  | [] => if object = 72 && (p.post first).isSome then (.done, []) else (.refusedRange, [])
  | es => (.done, readData es)

end Sys2Proof.Machine
end

