-- ==== Sys2Proof/Machine/Management.lean ====
section
/-! DEFINITION. The Management Agent (chapter 11): Manage orders and their replies, the claim cell, subscriptions, Clear Fault, Clear
Counters, Test Play and the warm reset. -/

namespace Sys2Proof.Machine

/-! ## Manage orders (12.5) -/

/-- The orders of a Manage frame. -/
inductive ManageOrder
  | claim
  | release
  | force
  | read (object first : Nat)
  | load (table first : Nat) (data : List Byte)
  | commit (table : Nat)
  | beginService
  | setClock (second : Nat)
  | portEnable (port : Nat)
  | portDisable (port : Nat)
  | gateSet (cls : Nat)
  | gateClear (cls : Nat)
  | start
  | stop
  | clearTrip
  | openSlides
  | restore
  | clearFault
  | clearCounters
  | testPlay (post kind code repeats : Nat)
  | reset
  | subscribe (conditions falling : Nat)
  | unsubscribe
  | unknown (code : Nat)
deriving DecidableEq, Repr, Inhabited

def ManageOrder.code : ManageOrder → Nat
  | .claim => 1
  | .release => 2
  | .force => 3
  | .read _ _ => 4
  | .load _ _ _ => 5
  | .commit _ => 6
  | .beginService => 7
  | .setClock _ => 8
  | .portEnable _ => 9
  | .portDisable _ => 10
  | .gateSet _ => 11
  | .gateClear _ => 12
  | .start => 13
  | .stop => 14
  | .clearTrip => 15
  | .openSlides => 16
  | .restore => 17
  | .clearFault => 18
  | .clearCounters => 19
  | .testPlay _ _ _ _ => 20
  | .reset => 21
  | .subscribe _ _ => 22
  | .unsubscribe => 23
  | .unknown code => code

/-- Whether an order passes the entitlement step from any source (R180). -/
def ManageOrder.fromAny : ManageOrder → Bool
  | .claim => true
  | .release => true
  | .force => true
  | .read _ _ => true
  | .unknown _ => true
  | .load _ _ _ => false
  | .commit _ => false
  | .beginService => false
  | .setClock _ => false
  | .portEnable _ => false
  | .portDisable _ => false
  | .gateSet _ => false
  | .gateClear _ => false
  | .start => false
  | .stop => false
  | .clearTrip => false
  | .openSlides => false
  | .restore => false
  | .clearFault => false
  | .clearCounters => false
  | .testPlay _ _ _ _ => false
  | .reset => false
  | .subscribe _ _ => false
  | .unsubscribe => false

/-- An order without arguments, when the frame has none. -/
def bare (o : ManageOrder) (args : List Byte) : Option ManageOrder := if args.isEmpty then some o else none

/-- The order a Manage payload spells; none where its length does not match its order code (R180). A Load of a table that exists
must carry whole entries. -/
def decodeManage (bs : List Byte) : Option ManageOrder :=
  match bs with
  | [] => none
  | c :: args =>
    match c.toNat with
    | 1 => bare .claim args
    | 2 => bare .release args
    | 3 => bare .force args
    | 4 => if args.length = 2 then some (.read (byteAt args 0) (byteAt args 1)) else none
    | 5 =>
      if 2 ≤ args.length && (!isTable (byteAt args 0) || (args.length - 2) % entrySize (byteAt args 0) = 0) then
        some (.load (byteAt args 0) (byteAt args 1) (args.drop 2))
      else none
    | 6 => if args.length = 1 then some (.commit (byteAt args 0)) else none
    | 7 => bare .beginService args
    | 8 => if args.length = 3 then some (.setClock (tripleAt args 0)) else none
    | 9 => if args.length = 1 then some (.portEnable (byteAt args 0)) else none
    | 10 => if args.length = 1 then some (.portDisable (byteAt args 0)) else none
    | 11 => if args.length = 1 then some (.gateSet (byteAt args 0)) else none
    | 12 => if args.length = 1 then some (.gateClear (byteAt args 0)) else none
    | 13 => bare .start args
    | 14 => bare .stop args
    | 15 => bare .clearTrip args
    | 16 => bare .openSlides args
    | 17 => bare .restore args
    | 18 => bare .clearFault args
    | 19 => bare .clearCounters args
    | 20 =>
      if args.length = 4 then some (.testPlay (byteAt args 0) (byteAt args 1) (byteAt args 2) (byteAt args 3)) else none
    | 21 => bare .reset args
    | 22 => if args.length = 3 then some (.subscribe (pairAt args 0) (byteAt args 2)) else none
    | 23 => bare .unsubscribe args
    | n => some (.unknown n)

/-! ## Replies (R180, R12) -/

/-- The result of an order, with the data of a Read. -/
structure Answer where
  result : ManageResult
  data   : List Byte := []
deriving DecidableEq, Repr, Inhabited

/-- A Manage Reply is sent for every result other than Done, for Done where reply-wanted is set, and for a Read always (R12). -/
def replies (c : Ctx) (code : Nat) (r : ManageResult) : Bool := r ≠ .done || c.replyWanted || code = 4

/-- The Manage Reply to an order, offered to the Agent Port where one is due (R180). -/
def Part.replyTo (p : Part) (c : Ctx) (code : Nat) (a : Answer) : Part :=
  if replies c code a.result then
    let holder := if a.result = .refusedClaim then p.claim.getD 0 else 0
    p.offer (builtFrame p.own c.source c.cls kindReply false false
      ([byteOf code, byteOf (manageResultCode a.result), byteOf holder] ++ a.data)) .part
  else p

/-! ## The claim cell (R179) -/

/-- Whether a station may claim the empty cell: an office or the brigade console, or any station while no Roles table has been
committed (R179). -/
def Part.mayClaim (p : Part) (st : Station) : Bool :=
  !p.isCommitted tRoles || p.role st = some .office || p.role st = some .brigade

/-- The cell's content changed, with its condition: old and new holder. -/
def Part.setClaim (p : Part) (h : Option Station) : Part :=
  let old := p.claim
  ({ p with claim := h }).raise .claim [byteOf (old.getD 0), byteOf (h.getD 0)]

/-- A Claim order. -/
def Part.takeClaim (p : Part) (st : Station) : Part × ManageResult :=
  match p.claim with
  | some h => if h = st then (p, .done) else (p, .refusedClaim)
  | none => if p.mayClaim st then (p.setClaim (some st), .done) else (p, .refusedClaim)

/-- A Release order. -/
def Part.takeRelease (p : Part) (st : Station) : Part × ManageResult :=
  if p.claim = some st then (p.setClaim none, .done) else (p, .refusedClaim)

/-- The subscriber place a station fills. -/
def Part.placeOf (p : Part) (st : Station) : Option Nat := placeNumbers.find? fun i => (p.place i).station = st

/-- The claim forced Notice to the previous holder, whether or not it subscribes (R184). -/
def Part.forcedNotice (p : Part) (previous new : Station) : Part :=
  match p.placeOf previous with
  | some i =>
    (p.sendNotice previous (p.notices.sequences.getD (i - 1) 0) .claimForced false [byteOf new]).stepSequence i
  | none => p.sendNotice previous 0 .claimForced false [byteOf new]

/-- A Force order. The Notices of the claim condition are built before the claim forced Notice (DESIGN CHOICE, log 55). -/
def Part.takeForce (p : Part) (st : Station) : Part × ManageResult :=
  if p.role st = some .brigade then
    match p.claim with
    | none => (p.setClaim (some st), .done)
    | some h => if h = st then (p, .done) else ((p.setClaim (some st)).forcedNotice h st, .done)
  else (p, .refusedClaim)

/-! ## Port and gate orders (R20, R21, R53) -/

def Part.takePortEnable (p : Part) (port : Nat) : Part × ManageResult :=
  match portOf port with
  | some q => p.enablePort q
  | none => (p, .refusedRange)

def Part.takePortDisable (p : Part) (arrival : PortId) (port : Nat) : Part × ManageResult :=
  match portOf port with
  | some q => p.disablePort q arrival
  | none => (p, .refusedRange)

/-! ## Subscriptions (R184) -/

/-- Entry `n` of table 14 in force replaced. -/
def Part.setPlace (p : Part) (i : Nat) (e : List Byte) : Part :=
  { p with tables := modifyAt p.tables tSubs fun t => t.set i e }

/-- A Subscribe order. Bits of the two sets that name no condition are kept as sent, and refuse nothing (DESIGN CHOICE, log 73). -/
def Part.takeSubscribe (p : Part) (st : Station) (conditions falling : Nat) : Part × ManageResult :=
  let e := byteOf st :: (pairOf conditions ++ [byteOf falling])
  match p.placeOf st with
  | some i => (p.setPlace i e, .done)
  | none =>
    match p.placeOf 0 with
    | some i => (p.setPlace i e, .done)
    | none => (p, .refusedState)

/-- An Unsubscribe order. -/
def Part.takeUnsubscribe (p : Part) (st : Station) : Part × ManageResult :=
  match p.placeOf st with
  | some i => (p.setPlace i [0#8, 0#8, 0#8, 0#8], .done)
  | none => (p, .done)

/-! ## Clear Fault, Clear Counters, Test Play (R180, R185, R186) -/

/-- A Clear Fault order. -/
def Part.takeClearFault (p : Part) : Part × ManageResult := ({ p with faults := {} }, .done)

/-- Every counter of the part set to 0 (R186). -/
def Part.takeClearCounters (p : Part) : Part × ManageResult :=
  let p := portIds.foldl (fun p q => p.modPort q fun x => { x with counters := {} }) p
  ({ p with
      agent := { p.agent with counters := {} }
      stale := 0
      chain := { p.chain with lateAnswers := 0, pollOverruns := 0 }
      postCounts := p.postCounts.map fun _ => {}
      unmatched := 0
      notices := { p.notices with lost := 0 } }, .done)

/-- A Test Play order (R180). -/
def Part.takeTestPlay (p : Part) (post kind code repeats : Nat) : Part × ManageResult :=
  let codeOk := (kind = 0 && between 1 code 48) || (kind = 1 && between 1 code 64)
  if !(between 1 post 16 && codeOk && between 1 repeats 15) then (p, .refusedRange)
  else if p.day.mode = .unloaded || p.day.mode = .evacuation then (p, .refusedState)
  else
    (p.handIn post
      { content := if kind = 0 then .pattern code else .phrase code, source := .test, repeats, enqueued := p.cycle }, .done)

/-! ## The warm reset (R31, R56, R72, R80, R99, R113, R136, R152, R164, R178, R187) -/

/-- Slots, waiting frames and queues emptied, the frames counted as flushed, no reports sent (R31, R56, R72). -/
def Part.flushAll (p : Part) : Part :=
  let p := portIds.foldl (fun p q =>
    let n := (p.port q).slots.length + (p.port q).queue.length
    (List.range n).foldl (fun p _ => p.count q .flushed) (p.modPort q fun x =>
      { x with slots := [], queue := [], pointer := .port .n })) p
  let p := p.agent.slots.foldl (fun p _ => p.countAgent .flushed) p
  let p := { p with agent := { p.agent with slots := [], waiting := [] } }
  let held := p.hold
  held.foldl (fun p e => p.count e.arrival .flushed) { p with hold := [] }

/-- Channels Idle and cleared, pending orders gone; toggles and the stale counter kept (R72). -/
def Part.resetChannels (p : Part) : Part := { p with orders := [], channels := List.replicate 12 {} }

/-- The Chain Supervisor and the Park Computer (R75, R80, R92 to R95, R113). The drive mode is set to Halted, unless Tripped, with its
condition; no lamp order is placed, since the lamp state last ordered is none after the reset (R92). That the cycle's report has been
taken, and evaluated, stays: a Poll taken later in the same periodic part is answered at once (R98). -/
def Part.resetChain (p : Part) : Part :=
  let old := p.chain.mode
  let new := if old = DriveMode.tripped then DriveMode.tripped else .halted
  let p := p.setFreshness .unknown
  let p := { p with
    chain := { p.chain with
      record := {}
      mode := new
      clearing := 0
      plan := none
      replans := 0
      stopStage := .none
      parkSet := []
      unclosable := []
      armed := false
      lamp := none
      lampResult := none }
    park := { p.park with inProgress := none, lastAnswer := none } }
  if old = new then p else p.raise .driveMode [byteOf (driveModeCode old), byteOf (driveModeCode new)]

/-- The Shutter Sequencer (R136). -/
def Part.resetSequencer (p : Part) : Part :=
  let slides := p.slides
  let shutters := p.shutters
  let p := { p with
    slides := slides.map (Option.map fun _ => {})
    shutters := shutters.map (Option.map fun _ => {})
    sequences := List.replicate 8 {}
    withheld := [] }
  let p := planeNumbers.foldl (fun p k =>
    match recordAt slides k with
    | some r => p.raiseSlide k r.state .unknown
    | none => p) p
  shutterNumbers.foldl (fun p k =>
    match recordAt shutters k with
    | some r => if r.state = .unknown then p else p.raise .shutterState (p.shutterDetails k r.state .unknown)
    | none => p) p

/-- Post `k`'s record at a warm reset, afresh (R152). -/
def Part.resetPost (p : Part) (k : Nat) : Part :=
  let p := p.modPost k fun r =>
    { r.clear with queue := [], silence := 0, heard := false, lastTest := none }
  p.setPostState k (if (p.postEntry k).enabled then .unknown else .disabled)

/-- The Post Unit (R152). -/
def Part.resetPosts (p : Part) : Part := postNumbers.foldl Part.resetPost p

/-- The Call Unit (R164); its waiting Confirms have left with the Agent Port's waiting frames. -/
def Part.resetCalls (p : Part) : Part := { p with calls := [] }

/-- The Day Unit (R178). The zones that leave the active set with the record raise no fire zone condition, since R178 names the store
mode condition alone (DEDUCED, log 29). -/
def Part.resetDay (p : Part) : Part :=
  let p := ({ p with fire := {} }).setPointer
  if p.day.mode = .unloaded then p
  else if p.day.alarm then p.enterEvacuation .alarm []
  else p.setStoreMode p.computedMode

/-- The warm reset asked for by a station (R187), block by block (log 29). A waiting Poll is answered as the reset ends (R99). -/
def Part.warmReset (p : Part) (st : Station) : Part :=
  let p := { p.flushAll.resetChannels with claim := none, copies := List.replicate 14 none, faults := {} }
  let p := p.fault .warmReset st
  let p := p.resetChain.resetSequencer.resetPosts.resetCalls.resetDay
  p.restage.answerWaiting false

/-- Whether a reset asked for by a station is refused: in Evacuation, from any but the brigade console (R187). -/
def Part.resetRefused (p : Part) (st : Station) : Bool := p.day.mode = .evacuation && p.brigade ≠ some st

/-- A Reset frame taken (R187): from a station of the Reset List, and not refused. -/
def Part.takeResetFrame (p : Part) (q : PortId) (st : Station) : Part :=
  if p.resetList.contains st && !p.resetRefused st then p.warmReset st else p.count q .badForm

/-! ## Taking a Manage frame (R180) -/

/-- An order's own effect and result, by the rule that owns it. -/
def Part.obey (p : Part) (c : Ctx) (o : ManageOrder) : Part × ManageResult :=
  match o with
  | .claim => p.takeClaim c.source
  | .release => p.takeRelease c.source
  | .force => p.takeForce c.source
  | .read object first => (p, (p.readObject object first).1)
  | .load table first data => p.takeLoad table first data
  | .commit table => p.takeCommit table
  | .beginService => p.takeBeginService
  | .setClock second => p.takeSetClock second
  | .portEnable port => p.takePortEnable port
  | .portDisable port => p.takePortDisable c.port port
  | .gateSet cls => p.setGate cls true
  | .gateClear cls => p.setGate cls false
  | .start => p.takeStart
  | .stop => p.takeStop
  | .clearTrip => p.takeClearTrip
  | .openSlides => p.takeOpenSlides
  | .restore => p.takeRestore
  | .clearFault => p.takeClearFault
  | .clearCounters => p.takeClearCounters
  | .testPlay post kind code repeats => p.takeTestPlay post kind code repeats
  | .reset => (p, .refusedState)
  | .subscribe conditions falling => p.takeSubscribe c.source conditions falling
  | .unsubscribe => p.takeUnsubscribe c.source
  | .unknown _ => (p, .unknownOrder)

/-- The data an order's reply carries: those of a Read. -/
def Part.orderData (p : Part) (o : ManageOrder) : List Byte :=
  match o with
  | .read object first => (p.readObject object first).2
  | _ => []

/-- Whether an order is carried out as a warm reset, which is not answered (R187). -/
def Part.asksReset (p : Part) (c : Ctx) (o : ManageOrder) : Bool := o = .reset && !p.resetRefused c.source

/-- A Manage order taken: entitlement, then the order, then the reply (R180). That the reply is offered after the Notices that the order's
effects raise is a DESIGN CHOICE (log 65). -/
def Part.takeManage (p : Part) (c : Ctx) (o : ManageOrder) : Part :=
  if !o.fromAny && p.claim ≠ some c.source then p.replyTo c o.code { result := .refusedClaim }
  else if p.asksReset c o then p.warmReset c.source
  else
    let (p', r) := p.obey c o
    p'.replyTo c o.code { result := r, data := p.orderData o }

end Sys2Proof.Machine
end

