-- ==== Sys2Proof/Machine/Delivery.lean ====
section
/-! DEFINITION. What becomes of a received frame: arrival checks, slot acceptance, routing decision (R25 to R27, R32 to R43), and its
taking by the block that owns its kind (R33, R34). -/

namespace Sys2Proof.Machine

/-! ## Reports (R13, R34) -/

/-- A Report counted as bad form at its port of arrival, when it is addressed to the part; a tapped copy is counted nowhere (R173). -/
def Part.badReport (p : Part) (q : Option PortId) : Part :=
  match q with
  | some q => p.count q .badForm
  | none => p

/-- A Report taken by the Chain Supervisor from the drive station (R76, R79). A report that spells none, a Chain Position with a speed above
1023 among them, is bad form (R189) and leaves the evaluation of R98 open (DESIGN CHOICE, log 66). -/
def Part.takeDriveReport (p : Part) (q : PortId) (rep : Option Report) : Part :=
  match rep with
  | some (.chainPosition x v ds edge) => p.takeChainPosition q x v ds edge
  | some (.driveState ds) => p.takeDriveState ds
  | some .landingEdge => p.takeLandingEdge
  | some .presence => p
  | _ => p.count q .badForm

/-- A Report taken by the Shutter Sequencer from a slide station (R118). -/
def Part.takeSlideReport (p : Part) (q : PortId) (st : Station) (rep : Option Report) : Part :=
  match rep with
  | some (.slide pos) => p.takeSlidePosition st pos
  | some .presence => p.slidePresence st
  | _ => p.count q .badForm

/-- A Report taken by the Shutter Sequencer from a floor shutter station (R129). -/
def Part.takeShutterReport (p : Part) (q : PortId) (st : Station) (rep : Option Report) : Part :=
  match rep with
  | some (.shutter pos) => p.takeShutterPosition st pos
  | some .presence => p.shutterPresence st
  | _ => p.count q .badForm

/-- A Report taken by the Post Unit from a signal post (R140). -/
def Part.takeSignalReport (p : Part) (q : PortId) (st : Station) (rep : Option Report) : Part :=
  match rep with
  | some .postReady => p.takePostReport st .ready
  | some .presence => p.takePostReport st .presence
  | some (.postDone _) => p.takePostReport st .done
  | some (.postHalted c) => p.takePostReport st (.halted c)
  | _ => p.count q .badForm

/-- A Report taken by the Day Unit from a fire panel station, addressed to the part or tapped (R173). -/
def Part.takePanelReport (p : Part) (q : Option PortId) (st : Station) (rep : Option Report) : Part :=
  match rep with
  | some (.zoneAlarm z) => if isZone z then (p.setPanel st 0).zoneAlarm z else p.badReport q
  | some (.zoneClear z) => if isZone z then (p.setPanel st 0).zoneClear z else p.badReport q
  | some (.dropNow mask) => (p.setPanel st 0).dropNow mask
  | some .presence => p.setPanel st 0
  | _ => p.badReport q

/-- A Report for the part, by the role of its source (R34). -/
def Part.takeReport (p : Part) (q : PortId) (st : Station) (rep : Option Report) : Part :=
  match p.role st with
  | some .drive => p.takeDriveReport q rep
  | some .firePanel => p.takePanelReport (some q) st rep
  | some .slide => p.takeSlideReport q st rep
  | some .shutter => p.takeShutterReport q st rep
  | some .post => p.takeSignalReport q st rep
  | some .brigade => p.count q .badForm
  | some .office => p.count q .badForm
  | none => p.count q .badForm

/-! ## Frames for the own number (R33, R189) -/

def Part.takePollFrame (p : Part) (q : PortId) (f : Frame) : Part :=
  if f.payload.length = 2 then p.takePoll q f.source (pairAt f.payload 0) else p.count q .badForm

def Part.takeConfirmFrame (p : Part) (q : PortId) (f : Frame) : Part :=
  if f.payload.length = 1 then p.takeConfirm q f.source f.toggle (byteAt f.payload 0) else p.count q .badForm

def Part.takeCallFrame (p : Part) (q : PortId) (f : Frame) : Part :=
  if f.payload.length = 6 then
    p.takeCall { source := f.source, cls := f.cls, toggle := f.toggle }
      { code := byteAt f.payload 0, posts := BitVec.ofNat 16 (pairAt f.payload 1), rounds := byteAt f.payload 3,
        interval := pairAt f.payload 4 }
  else p.count q .badForm

def Part.takeAcknowledgeFrame (p : Part) (q : PortId) (f : Frame) : Part :=
  if f.payload.length = 2 then p.takeAcknowledge q (byteAt f.payload 0) (byteAt f.payload 1) else p.count q .badForm

def Part.takeManageFrame (p : Part) (q : PortId) (f : Frame) : Part :=
  match decodeManage f.payload with
  | some o => p.takeManage { port := q, source := f.source, cls := f.cls, replyWanted := f.replyWanted } o
  | none => p.count q .badForm

def Part.takeResetKind (p : Part) (q : PortId) (f : Frame) : Part :=
  if f.payload.isEmpty then p.takeResetFrame q f.source else p.count q .badForm

/-- A frame taken by the block that takes its kind; Order and Plain frames are bad form (R11, R33). -/
def Part.takeFrame (p : Part) (q : PortId) (f : Frame) : Part :=
  match f.kind with
  | 1 => p.takeReport q f.source (decodeReport f.payload)
  | 2 => p.takePollFrame q f
  | 5 => p.takeConfirmFrame q f
  | 6 => p.takeCallFrame q f
  | 7 => p.takeAcknowledgeFrame q f
  | 9 => p.takeManageFrame q f
  | 11 => p.takeResetKind q f
  | _ => p.count q .badForm

/-- The agent of R41 that R33 and R34 name for a frame; the Order Channels are none of the six. -/
def Part.namedAgent (p : Part) (f : Frame) : Option Agent :=
  match f.kind with
  | 1 =>
    match p.role f.source with
    | some .drive => some .chainSupervisor
    | some .firePanel => some .dayUnit
    | some .slide => some .shutterSequencer
    | some .shutter => some .shutterSequencer
    | some .post => some .postUnit
    | some .brigade => none
    | some .office => none
    | none => none
  | 2 => some .chainSupervisor
  | 6 => some .callUnit
  | 7 => some .callUnit
  | 9 => some .managementAgent
  | 11 => some .managementAgent
  | _ => none

/-! ## The routing decision (R32) -/

/-- Whether the fire-panel tap acts on a frame that is not for the own number (R35). -/
def Part.tapped (p : Part) (f : Frame) : Bool := f.kind = kindReport && p.role f.source = some .firePanel

/-- Whether a gate discards a transit frame (R53). -/
def Part.gatedOut (p : Part) (f : Frame) : Bool :=
  match gateOf f.cls with
  | some g => p.gateClosed g
  | none => false

/-- The disposition of a transit frame (R32). -/
inductive Disposition
  | forward (f : Frame) (target : List PortId)
  | held (c : HoldCondition) (r : Route)
  | discarded (n : Counter)
  | consumed
deriving DecidableEq, Repr, Inhabited

/-- A frame that is routed: to its target set, or discarded (R36, R37). -/
def Part.routed (p : Part) (q : PortId) (f : Frame) (r : Route) : Disposition :=
  match p.resolve (some q) r with
  | .target t => .forward f t
  | .discard n => .discarded n

/-- A Hold action (R43). -/
def Part.holdDisposition (p : Part) (q : PortId) (f : Frame) (c : Option HoldCondition) : Disposition :=
  let r := p.routeFor f.dest
  match c, r with
  | none, _ => .discarded .unroutable
  | some _, .none => .discarded .unroutable
  | some c, .port x => if x = q then .discarded .localRoute else if 4 ≤ p.hold.length then .discarded .holdFull else .held c r
  | some c, .flood => if 4 ≤ p.hold.length then .discarded .holdFull else .held c r

/-- A routing decision: the disposition, whether the tap copies the frame to the Day Unit, and the agent a Copy or Take hands it to. -/
structure Decision where
  disposition : Disposition
  tap         : Bool
  handTo      : Option Agent
deriving DecidableEq, Repr, Inhabited

/-- Whether an agent takes the frame that a Copy or Take hands it: R33 and R34 must name it (R41). -/
def Part.agentTakes (p : Part) (f : Frame) (a : Option Agent) : Bool := a.isSome && p.namedAgent f = a

/-- The agent that receives a copy or a taken frame beyond the tap: none where the tap's copy is the delivery already (R41). -/
def handOver (tap : Bool) (a : Option Agent) : Option Agent := if tap && a = some .dayUnit then none else a

/-- Steps 4 and 5 of the decision: the first matching pass rule and its action (R39 to R43). -/
def Part.decideByRule (p : Part) (q : PortId) (f : Frame) (tap : Bool) : Decision :=
  match passAction (p.table tPass) f p.day.mode with
  | .pass => { disposition := p.routed q f (p.routeFor f.dest), tap, handTo := none }
  | .drop => { disposition := .discarded .ruleDrop, tap, handTo := none }
  | .copy a =>
    { disposition := p.routed q f (p.routeFor f.dest), tap, handTo := if p.agentTakes f a then handOver tap a else none }
  | .take a =>
    if p.agentTakes f a then { disposition := .consumed, tap, handTo := handOver tap a }
    else { disposition := .discarded .badForm, tap, handTo := none }
  | .redirect d => { disposition := p.routed q (withCheck { f with dest := d }) (p.route d), tap, handTo := none }
  | .hold c => { disposition := p.holdDisposition q f c, tap, handTo := none }

/-- The routing decision of a frame that is not for the own number (R32, steps 2 to 5), from the state at its acceptance (log 17). -/
def Part.decide (p : Part) (q : PortId) (f : Frame) : Decision :=
  let tap := p.tapped f
  if p.gatedOut f then { disposition := .discarded .gated, tap, handTo := none } else p.decideByRule q f tap

/-- The disposition carried out: a Forward frame takes a slot, a held one a place in the Hold List, a discard is counted. -/
def Part.dispose (p : Part) (q : PortId) (f : Frame) (d : Disposition) : Part :=
  match d with
  | .forward f target =>
    p.modPort q fun x =>
      { x with slots := x.slots ++ [{ frame := f, builder := .station, target, age := 0, arrived := p.cycle }] }
  | .held condition route =>
    { p with hold := p.hold ++
      [p.evaluateHeld { frame := f, arrival := q, condition, route, age := 0, eligible := false, target := [] }] }
  | .discarded n => p.count q n
  | .consumed => p

/-- The agent copies of a decision delivered: the tap's, then that of a Copy or Take (R35, R41). -/
def Part.handCopies (p : Part) (q : PortId) (f : Frame) (d : Decision) : Part :=
  let p := if d.tap then p.takePanelReport none f.source (decodeReport f.payload) else p
  if d.handTo.isSome then p.takeFrame q f else p

/-- A transit frame accepted (R32). -/
def Part.transit (p : Part) (q : PortId) (f : Frame) : Part :=
  let d := p.decide q f
  (p.dispose q f d.disposition).handCopies q f d

/-- A valid frame of a kind that stations send: slot acceptance, then the routing decision (R27, R32, R33). -/
def Part.acceptFrame (p : Part) (q : PortId) (f : Frame) : Part :=
  if !classRule (p.port q).free f.cls then p.count q .overrun
  else if f.dest = p.own then p.takeFrame q f
  else p.transit q f

/-- A run of bytes received on port `q` (R17, R25, R26). -/
def Part.receive (p : Part) (q : PortId) (bs : List Byte) : Part :=
  if !(p.port q).state.live then p
  else if !checkPasses bs then p.count q .badCheck
  else if !formPasses p.own bs then p.count q .badForm
  else
    let f := parseFrame bs
    let p := p.portHears q
    if partOnlyKind f.kind then p.count q .badForm else p.acceptFrame q f

end Sys2Proof.Machine
end

