-- ==== Sys2Proof/Machine/Cycle.lean ====
section
/-! DEFINITION. The line cycle (chapter 1): the end-of-periodic mark, the cycle start with everything that counts in cycles, the timed
events taken by themselves, and what follows every command. -/

namespace Sys2Proof.Machine

/-! ## What follows every command (log 21) -/

/-- The conditions that the spec has hold at every moment brought up to date: the staged permit (R95), pending Closes (R122), the
evaluation of the cycle's report (R98), the Hold List (R45), the gates (R54). -/
def Part.settle (p : Part) : Part := p.restage.recheckCloses.settleEvaluation.evaluateHold.gatesNow

/-- A command's effect on the part, with nothing on the lines before it and everything settled after it. -/
def Part.act (p : Part) (f : Part → Part) : Part := (f { p with sent := [] }).settle

/-- A command carried out: the part changes, the queue of commands does not. -/
def State.run (s : State) (f : Part → Part) : Host.Outcome State Fault Refusal := .next { s with part := s.part.act f }

/-! ## The end-of-periodic mark (R2, R4, R77, R98) -/

/-- The end-of-periodic mark, in the periodic part: the record by R77 and R89 with the permit staged, a waiting Poll answered late,
the bursts begun. -/
def Part.endPeriodic (p : Part) : Part :=
  if p.periodic then
    let p := p.missReport.restage.answerWaiting true
    let p := { p with periodic := false }
    portIds.foldl Part.burstBegin p
  else p

/-! ## Marks (R3, R5) -/

/-- The credit of a port: free slots less one, 0 for none (R5). -/
def Port.credit (x : Port) : Nat := x.free - 1

/-- The Mark of port `q`, its fields taken at the cycle start (R5). -/
def Part.markFrame (p : Part) (q : PortId) : Frame :=
  let x := p.port q
  builtFrame p.own 0 .safety kindMark false false
    (markPayload p.cycle x.credit (8 - x.queue.length) p.day.mode p.chain.mode (x.state = .training && x.training ≤ 3))

/-- The Mark of port `q` sent where the port is Training, Up or Silent (R3). -/
def Part.sendMark (p : Part) (q : PortId) : Part :=
  if (p.port q).state.live then p.transmit q (p.markFrame q) else p

/-! ## The cycle start (R1) -/

/-- The line as the cycle start finds it: an end-of-periodic mark not yet commanded is made, the bursts have ended (R4, log 6). -/
def Part.closeCycle (p : Part) : Part :=
  let p := p.endPeriodic
  portIds.foldl (fun p q => p.burstFinish q 11) p

/-- The new cycle's number and its periodic part; the mark code in force is taken for the cycle (R1, R2). -/
def Part.openCycle (p : Part) : Part :=
  { p with
    cycle := if p.beforeFirst then 0 else (p.cycle + 1) % 65536
    beforeFirst := false
    periodic := true
    markCode := p.lineByte 0
    chain := { p.chain with reportTaken := false, evaluated := false, evalPlan := none } }

/-- The clearing timer at a cycle start (R82, R84). -/
def Part.clearingTick (p : Part) : Part :=
  if p.chain.mode = .lastCall then
    if p.chain.clearing ≤ 1 then p.clearingExpires
    else { p with chain := { p.chain with clearing := p.chain.clearing - 1 } }
  else p

/-- Port W's cooldown at a cycle start (R23). -/
def Part.cooldownTick (p : Part) : Part := { p with cooldown := p.cooldown - 1 }

/-- The channels with a retry due. -/
def Part.retriesDue (p : Part) : List Nat := channelNumbers.filter fun c => (p.channel c).retryDue

/-- The line's part of a cycle start: ages, port counts, reply windows and the retries that were due before it (R18, R19, R23, R48, R52,
R62, R67). Several channels act in rising channel number (DESIGN CHOICE, log 56). No waiting frame is taken between the freeing of a slot by
aging or pruning and the Notices and retries built after it, so these find the slot first (DESIGN CHOICE, log 74). -/
def Part.lineTick (p : Part) : Part :=
  let due := p.retriesDue
  let p := p.ageHold.ageFrames
  let p := (portIds.foldl Part.portTick p).cooldownTick
  due.foldl Part.rebuild (channelNumbers.foldl Part.windowTick p)

/-- The records' part of a cycle start (R84, R120, R121, R130, R133, R140, R147). -/
def Part.recordsTick (p : Part) : Part := p.clearingTick.slidesTick.shuttersTick.escapesTick.postsTick

/-- The Day and Call Units' part of a cycle start (R159, R165, R172, R173, R176). -/
def Part.dayTick (p : Part) (alarm : Bool) : Part :=
  let p := (p.panelsTick.streamTick.callsTick.alarmSample alarm).clockTick
  { p with ahead := [] }

/-- A cycle start with the ALARM contact's level (R1): the order of its events is log 3. A plan still in progress was asked since the
last cycle start, and completes before the events of this one (R108, log 7). -/
def Part.cycleStart (p : Part) (alarm : Bool) : Part :=
  let p := (p.closeCycle.completePlan.openCycle.lineTick.recordsTick).dayTick alarm
  portIds.foldl Part.sendMark p

/-! ## Timed events taken by themselves (log 4) -/

/-- Power applied: the straps read, every block at its power-up state, cycle 0 started (R15, R188). -/
def powerUpPart (strap : Nat) (alarm : Bool) : Part := (Part.powerUp strap).cycleStart alarm

/-- The third consecutive active sample in Released (R172). An evacuation entered so has the cycle number of the command as its start cycle
(DESIGN CHOICE, log 4). -/
def Part.alarmAssertedNow (p : Part) : Part := if !p.day.alarm && p.day.alarmRun = 2 then p.alarmRises else p

/-- The 25th consecutive inactive sample in Asserted (R172). -/
def Part.alarmReleasedNow (p : Part) : Part := if p.day.alarm && p.day.alarmRun = 24 then p.alarmFalls else p

/-- A training count that would become 11 (R18). -/
def Part.trainingTimesOut (p : Part) (q : PortId) : Part :=
  if (p.port q).state = .training && 10 ≤ (p.port q).training then p.enterSilent q else p

/-- A silence count that reaches the silence limit (R19). -/
def Part.portFallsSilent (p : Part) (q : PortId) : Part :=
  if (p.port q).state = .up && p.silenceLimit ≤ bump8 (p.port q).silence then p.enterSilent q else p

/-- A cooldown count that reaches 0 (R23). -/
def Part.cooldownExpires (p : Part) : Part := if p.cooldown = 1 then { p with cooldown := 0 } else p

/-- Misses that reach 3 at the mark (R77, R89). -/
def Part.recordStale (p : Part) : Part :=
  let r := p.chain.record
  if p.periodic && !p.chain.reportTaken && (r.freshness = .fresh || r.freshness = .extrapolated) && 2 ≤ r.misses then p.goStale
  else p

/-- A clearing timer that runs out (R84). -/
def Part.clearingRunsOut (p : Part) : Part :=
  if p.chain.mode = .lastCall && p.chain.clearing ≤ 1 then p.clearingExpires else p

/-- A reply window that runs out (R67). -/
def Part.windowRunsOut (p : Part) (c : Nat) : Part :=
  if (p.channel c).timed && (p.channel c).timer ≤ 1 then p.windowExpires c else p

/-- A slide's travel timer that runs out (R120). -/
def Part.slideRunsOut (p : Part) (k : Nat) : Part :=
  if (p.slide k).any fun r => r.moving && r.timer ≤ 1 then p.slideTimesOut k else p

/-- A slide's silence count that reaches 50 (R121). -/
def Part.slideFallsSilent (p : Part) (k : Nat) : Part :=
  if (p.slide k).any fun r => r.silence = 49 then p.slideGoesLost k else p

/-- A shutter's travel timer that runs out (R130). -/
def Part.shutterRunsOut (p : Part) (k : Nat) : Part :=
  if (p.shutterRec k).any fun r => r.moving && r.timer ≤ 1 then p.shutterTimesOut k else p

/-- A shutter's silence count that reaches 50 (R130). -/
def Part.shutterFallsSilent (p : Part) (k : Nat) : Part :=
  if (p.shutterRec k).any fun r => r.silence = 49 then p.shutterGoesLost k else p

/-- An escape hold timer that runs out (R133). -/
def Part.escapeRunsOut (p : Part) (c : Nat) : Part := if (p.seq c).timer = 1 then p.escapeExpires c else p

/-- A play deadline that runs out (R147). -/
def Part.deadlineRunsOut (p : Part) (k : Nat) : Part :=
  if (p.post k).any fun r => r.timed && r.deadline ≤ 1 then p.postOverruns k else p

/-- A post's silence count that reaches 50 (R140). -/
def Part.postFallsSilent (p : Part) (k : Nat) : Part :=
  if (p.post k).any fun r => r.silence = 49 then p.postGoesLost k else p

/-- A timed event that restarts its own timer noted, so that the coming cycle start does not count it again. -/
def Part.noteAhead (p : Part) (a : Ahead) : Part := { p with ahead := a :: p.ahead }

/-- A call's countdown that reaches 0 (R159). -/
def Part.roundFallsDue (p : Part) (id : Nat) : Part :=
  match p.callOf id with
  | some c => if c.nextRound = 1 && !p.ahead.contains (.round id) then (p.roundDue c).noteAhead (.round id) else p
  | none => p

/-- A sub-second count that would reach 50 (R165). A step taken so has the cycle number of the command in its record (DESIGN CHOICE, log 4). -/
def Part.secondPasses (p : Part) : Part :=
  if p.day.clockSet && p.day.sub = 49 then p.clockAdvances.noteAhead .clock else p

/-- A stream timer that reaches 0 (R176). -/
def Part.streamRunsOut (p : Part) : Part :=
  if p.fire.streamOn && p.fire.streamTimer ≤ 1 then p.streamExpires.noteAhead .stream else p

/-- A fire panel station's silence count that reaches 50 (R173). -/
def Part.panelFallsSilent (p : Part) (st : Station) : Part :=
  if p.panelStations.contains st && p.panelSilence st = 49 then p.panelGoesLost st else p

end Sys2Proof.Machine
end

