-- ==== Sys2Proof/Machine/CallCommands.lean ====
section
/-! DEFINITION. The meanings of the commands of the staff bell calls: one definition for each. -/

namespace Sys2Proof.Machine

/-- CALL (R156 to R158). -/
def execCall (f : From) (cls : Cls) (toggle : Bool) (code : Nat) (posts : BitVec 16) (rounds interval : Nat) (s : State) : Host.Outcome State Fault Refusal :=
  s.run fun p => p.takeCall { source := f.source, cls, toggle } { code, posts, rounds, interval }

/-- ROUND_DUE: ahead of the coming cycle start (R159, R160, log 4). -/
def execRoundDue (id : Nat) (s : State) : Host.Outcome State Fault Refusal :=
  s.run fun p => p.roundFallsDue id

/-- ACKNOWLEDGE (R163). -/
def execAcknowledge (f : From) (form id : Nat) (s : State) : Host.Outcome State Fault Refusal :=
  s.run fun p => p.takeAcknowledge f.port form id

end Sys2Proof.Machine
end

