-- ==== Sys2Proof/Machine/ChainCommands.lean ====
section
/-! DEFINITION. The meanings of the commands of the chain: one definition for each. -/

namespace Sys2Proof.Machine

/-- CHAIN_POSITION: by the role of its source (R34, R76); a speed above 1023 is bad form (R189), an odd flag byte a free value (log 12). -/
def execChainPosition (f : From) (position speed : Nat) (state : DriveState) (edge : Byte) (s : State) : Host.Outcome State Fault Refusal :=
  s.run fun p =>
    p.takeReport f.port f.source (if speed ≤ 1023 then some (.chainPosition position speed state (flagSet edge)) else none)

/-- DRIVE_STATE: by the role of its source (R34, R79). -/
def execDriveState (f : From) (state : DriveState) (s : State) : Host.Outcome State Fault Refusal :=
  s.run fun p => p.takeReport f.port f.source (some (.driveState state))

/-- LANDING_EDGE_TRIP: by the role of its source (R34, R79). -/
def execLandingEdgeTrip (f : From) (s : State) : Host.Outcome State Fault Refusal :=
  s.run fun p => p.takeReport f.port f.source (some .landingEdge)

/-- CHAIN_RECORD_STALE: the third miss of the coming mark, taken ahead of it (R77, R89, log 4). -/
def execChainRecordStale (s : State) : Host.Outcome State Fault Refusal :=
  s.run Part.recordStale

/-- CLEARING_TIMER_EXPIRED: ahead of the coming cycle start (R84, log 4). -/
def execClearingTimerExpired (s : State) : Host.Outcome State Fault Refusal :=
  s.run Part.clearingRunsOut

/-- PLAN_COMPLETED: the plan in progress completes (R107, R108). -/
def execPlanCompleted (s : State) : Host.Outcome State Fault Refusal :=
  s.run Part.completePlan

/-- POLL (R3, R97, R98, R99). -/
def execPoll (f : From) (cycle : Nat) (s : State) : Host.Outcome State Fault Refusal :=
  s.run fun p => p.takePoll f.port f.source cycle

end Sys2Proof.Machine
end

