-- ==== Sys2Proof/Machine/ChannelCommands.lean ====
section
/-! DEFINITION. The meanings of the commands of the Order Channels: one definition for each. -/

namespace Sys2Proof.Machine

/-- CHANNEL_GRANT: one grant of the channel arbiter (R59, R61, R62). -/
def execChannelGrant (s : State) : Host.Outcome State Fault Refusal :=
  s.run Part.grant

/-- RETRY_REBUILD: ahead of the coming cycle start (R62, R64, R66, log 4). -/
def execRetryRebuild (channel : Nat) (s : State) : Host.Outcome State Fault Refusal :=
  s.run fun p => p.rebuild channel

/-- CONFIRM (R65, R66, R69). -/
def execConfirm (f : From) (toggle : Bool) (result : Nat) (s : State) : Host.Outcome State Fault Refusal :=
  s.run fun p => p.takeConfirm f.port f.source toggle result

/-- REPLY_WINDOW_EXPIRED: ahead of the coming cycle start (R67, R69, log 4). -/
def execReplyWindowExpired (channel : Nat) (s : State) : Host.Outcome State Fault Refusal :=
  s.run fun p => p.windowRunsOut channel

end Sys2Proof.Machine
end

