-- ==== Sys2Proof/Machine/DayCommands.lean ====
section
/-! DEFINITION. The meanings of the commands of the store day: one definition for each. -/

namespace Sys2Proof.Machine

/-- CLOCK_ADVANCE: ahead of the coming cycle start (R165, R167, R170, log 4). -/
def execClockAdvance (s : State) : Host.Outcome State Fault Refusal :=
  s.run Part.secondPasses

/-- FIRE_ZONE_ALARM: by the role of its source (R34, R173 to R175). -/
def execFireZoneAlarm (f : From) (zone : Nat) (s : State) : Host.Outcome State Fault Refusal :=
  s.run fun p => p.takeReport f.port f.source (some (.zoneAlarm zone))

/-- FIRE_ZONE_CLEAR: by the role of its source (R34, R173). -/
def execFireZoneClear (f : From) (zone : Nat) (s : State) : Host.Outcome State Fault Refusal :=
  s.run fun p => p.takeReport f.port f.source (some (.zoneClear zone))

/-- STREAM_TIMER_EXPIRED: ahead of the coming cycle start (R176, log 4). -/
def execStreamTimerExpired (s : State) : Host.Outcome State Fault Refusal :=
  s.run Part.streamRunsOut

/-- FIRE_PANEL_LOST: ahead of the coming cycle start (R173, log 4). -/
def execFirePanelLost (station : Station) (s : State) : Host.Outcome State Fault Refusal :=
  s.run fun p => p.panelFallsSilent station

end Sys2Proof.Machine
end

