-- ==== Sys2Proof/Machine/LineCommands.lean ====
section
/-! DEFINITION. The meanings of the commands of the line cycle, the ports and the Relay: one definition for each. -/

namespace Sys2Proof.Machine

/-- POWER_UP: straps read, every block at its power-up state, cycle 0 started (R15, R188). -/
def execPowerUp (strap : Nat) (alarm : Bool) (s : State) : Host.Outcome State Fault Refusal :=
  s.run fun _ => powerUpPart strap alarm

/-- CYCLE_START with the level of the ALARM contact (R1). -/
def execCycleStart (alarm : Bool) (s : State) : Host.Outcome State Fault Refusal :=
  s.run fun p => p.cycleStart alarm

/-- ALARM_ASSERTED: the third active sample of the coming cycle start, taken ahead of it (R172, log 4). -/
def execAlarmAsserted (s : State) : Host.Outcome State Fault Refusal :=
  s.run Part.alarmAssertedNow

/-- ALARM_RELEASED: the 25th inactive sample of the coming cycle start, taken ahead of it (R172, log 4). -/
def execAlarmReleased (s : State) : Host.Outcome State Fault Refusal :=
  s.run Part.alarmReleasedNow

/-- END_OF_PERIODIC_MARK (R2, R4, R77, R98). -/
def execEndOfPeriodicMark (s : State) : Host.Outcome State Fault Refusal :=
  s.run Part.endPeriodic

/-- BURST_FRAME_SENT: the frame being sent has left, and the burst goes on (R4, R51). -/
def execBurstFrameSent (q : PortId) (s : State) : Host.Outcome State Fault Refusal :=
  s.run fun p => p.burstSent q

/-- FRAME_RECEIVED: from the arrival checks to the taking of the frame (R25 to R43). -/
def execFrameReceived (q : PortId) (bytes : List Byte) (s : State) : Host.Outcome State Fault Refusal :=
  s.run fun p => p.receive q bytes

/-- OUTPUT_GRANT: one grant of the arbiter of a port (R46, R47, R50). -/
def execOutputGrant (q : PortId) (s : State) : Host.Outcome State Fault Refusal :=
  s.run fun p => p.outputGrant q

/-- AGENT_PORT_SLOT_TAKEN: waiting frames take slots while the class rule allows (R28). -/
def execAgentPortSlotTaken (s : State) : Host.Outcome State Fault Refusal :=
  s.run fun p => p.takeAllWaiting p.agent.waiting.length

/-- FRAME_AGED: a frame at its limit discarded ahead of the coming cycle start (R52, log 4). -/
def execFrameAged (place : FramePlace) (s : State) : Host.Outcome State Fault Refusal :=
  s.run fun p => p.frameAges place

/-- HOLD_AGE_EXPIRED: a Hold List entry at its limit discarded ahead of the coming cycle start (R48, log 4). -/
def execHoldAgeExpired (i : Nat) (s : State) : Host.Outcome State Fault Refusal :=
  s.run fun p => p.holdExpires i

/-- GATE_EFFECTIVE: the effectiveness of a gate brought up to date (R54). -/
def execGateEffective (g : Gate) (s : State) : Host.Outcome State Fault Refusal :=
  s.run fun p => p.gateNow g

/-- TRAINING_TIMEOUT: ahead of the coming cycle start (R18, log 4). -/
def execTrainingTimeout (q : PortId) (s : State) : Host.Outcome State Fault Refusal :=
  s.run fun p => p.trainingTimesOut q

/-- PORT_SILENT: ahead of the coming cycle start (R19, log 4). -/
def execPortSilent (q : PortId) (s : State) : Host.Outcome State Fault Refusal :=
  s.run fun p => p.portFallsSilent q

/-- OVERCURRENT (R22). -/
def execOvercurrent (s : State) : Host.Outcome State Fault Refusal :=
  s.run Part.overcurrent

/-- COOLDOWN_EXPIRED: ahead of the coming cycle start (R23, log 4). -/
def execCooldownExpired (s : State) : Host.Outcome State Fault Refusal :=
  s.run Part.cooldownExpires

end Sys2Proof.Machine
end

