-- ==== Sys2Proof/Machine/ManageCommands.lean ====
section
/-! DEFINITION. The meanings of the commands of the Management Agent: one definition for each. -/

namespace Sys2Proof.Machine

/-- CLAIM: entitlement, effect and reply (R179, R180). -/
def execClaim (c : Ctx) (s : State) : Host.Outcome State Fault Refusal :=
  s.run fun p => p.takeManage c .claim

/-- RELEASE: (R179, R180). -/
def execRelease (c : Ctx) (s : State) : Host.Outcome State Fault Refusal :=
  s.run fun p => p.takeManage c .release

/-- FORCE: (R179, R180, R184). -/
def execForce (c : Ctx) (s : State) : Host.Outcome State Fault Refusal :=
  s.run fun p => p.takeManage c .force

/-- READ: changes no state but for its reply (R183, R190). -/
def execRead (c : Ctx) (object first : Nat) (s : State) : Host.Outcome State Fault Refusal :=
  s.run fun p => p.takeManage c (.read object first)

/-- LOAD: a run of bytes that is not whole entries of a table is bad form (R180, R181). -/
def execLoad (c : Ctx) (table first : Nat) (data : List Byte) (s : State) : Host.Outcome State Fault Refusal :=
  s.run fun p =>
    if isTable table && data.length % entrySize table ≠ 0 then p.count c.port .badForm
    else p.takeManage c (.load table first data)

/-- COMMIT: the tests of the owner, then the effects (R182). -/
def execCommit (c : Ctx) (table : Nat) (s : State) : Host.Outcome State Fault Refusal :=
  s.run fun p => p.takeManage c (.commit table)

/-- BEGIN_SERVICE: (R169). -/
def execBeginService (c : Ctx) (s : State) : Host.Outcome State Fault Refusal :=
  s.run fun p => p.takeManage c .beginService

/-- SET_CLOCK: (R165, R167, R168). -/
def execSetClock (c : Ctx) (second : Nat) (s : State) : Host.Outcome State Fault Refusal :=
  s.run fun p => p.takeManage c (.setClock second)

/-- PORT_ENABLE: (R20, R23). -/
def execPortEnable (c : Ctx) (port : Nat) (s : State) : Host.Outcome State Fault Refusal :=
  s.run fun p => p.takeManage c (.portEnable port)

/-- PORT_DISABLE: (R21, R23). -/
def execPortDisable (c : Ctx) (port : Nat) (s : State) : Host.Outcome State Fault Refusal :=
  s.run fun p => p.takeManage c (.portDisable port)

/-- GATE_SET: (R53). -/
def execGateSet (c : Ctx) (cls : Nat) (s : State) : Host.Outcome State Fault Refusal :=
  s.run fun p => p.takeManage c (.gateSet cls)

/-- GATE_CLEAR: (R53). -/
def execGateClear (c : Ctx) (cls : Nat) (s : State) : Host.Outcome State Fault Refusal :=
  s.run fun p => p.takeManage c (.gateClear cls)

/-- START: (R81). -/
def execStart (c : Ctx) (s : State) : Host.Outcome State Fault Refusal :=
  s.run fun p => p.takeManage c .start

/-- STOP: (R91). -/
def execStop (c : Ctx) (s : State) : Host.Outcome State Fault Refusal :=
  s.run fun p => p.takeManage c .stop

/-- CLEAR_TRIP: (R90). -/
def execClearTrip (c : Ctx) (s : State) : Host.Outcome State Fault Refusal :=
  s.run fun p => p.takeManage c .clearTrip

/-- OPEN_SLIDES: (R125). -/
def execOpenSlides (c : Ctx) (s : State) : Host.Outcome State Fault Refusal :=
  s.run fun p => p.takeManage c .openSlides

/-- RESTORE: (R177). -/
def execRestore (c : Ctx) (s : State) : Host.Outcome State Fault Refusal :=
  s.run fun p => p.takeManage c .restore

/-- CLEAR_FAULT: (R185). -/
def execClearFault (c : Ctx) (s : State) : Host.Outcome State Fault Refusal :=
  s.run fun p => p.takeManage c .clearFault

/-- CLEAR_COUNTERS: (R186). -/
def execClearCounters (c : Ctx) (s : State) : Host.Outcome State Fault Refusal :=
  s.run fun p => p.takeManage c .clearCounters

/-- TEST_PLAY: (R180). -/
def execTestPlay (c : Ctx) (post kind code repeats : Nat) (s : State) : Host.Outcome State Fault Refusal :=
  s.run fun p => p.takeManage c (.testPlay post kind code repeats)

/-- RESET: (R187). -/
def execReset (c : Ctx) (s : State) : Host.Outcome State Fault Refusal :=
  s.run fun p => p.takeManage c .reset

/-- RESET_FRAME (R187). -/
def execResetFrame (f : From) (s : State) : Host.Outcome State Fault Refusal :=
  s.run fun p => p.takeResetFrame f.port f.source

/-- SUBSCRIBE: (R184). -/
def execSubscribe (c : Ctx) (conditions falling : Nat) (s : State) : Host.Outcome State Fault Refusal :=
  s.run fun p => p.takeManage c (.subscribe conditions falling)

/-- UNSUBSCRIBE: (R184). -/
def execUnsubscribe (c : Ctx) (s : State) : Host.Outcome State Fault Refusal :=
  s.run fun p => p.takeManage c .unsubscribe

/-- UNKNOWN_ORDER (R180); the arguments are not examined. -/
def execUnknownOrder (c : Ctx) (code : Nat) (_args : List Byte) (s : State) : Host.Outcome State Fault Refusal :=
  s.run fun p => p.takeManage c (.unknown code)

end Sys2Proof.Machine
end

