-- ==== Sys2Proof/Machine/PostCommands.lean ====
section
/-! DEFINITION. The meanings of the commands of the signal posts: one definition for each. -/

namespace Sys2Proof.Machine

/-- POST_READY: by the role of its source (R34, R140). -/
def execPostReady (f : From) (s : State) : Host.Outcome State Fault Refusal :=
  s.run fun p => p.takeReport f.port f.source (some .postReady)

/-- POST_DONE: by the role of its source (R34, R140, R148). -/
def execPostDone (f : From) (completed : Nat) (s : State) : Host.Outcome State Fault Refusal :=
  s.run fun p => p.takeReport f.port f.source (some (.postDone completed))

/-- POST_HALTED: by the role of its source (R34, R140, R148, R150). -/
def execPostHalted (f : From) (completed : Nat) (s : State) : Host.Outcome State Fault Refusal :=
  s.run fun p => p.takeReport f.port f.source (some (.postHalted completed))

/-- PRESENCE: by the role of its source (R13, R34). -/
def execPresence (f : From) (s : State) : Host.Outcome State Fault Refusal :=
  s.run fun p => p.takeReport f.port f.source (some .presence)

/-- PLAY_DEADLINE_EXPIRED: ahead of the coming cycle start (R147, log 4). -/
def execPlayDeadlineExpired (post : Nat) (s : State) : Host.Outcome State Fault Refusal :=
  s.run fun p => p.deadlineRunsOut post

/-- POST_STATION_LOST: ahead of the coming cycle start (R140, log 4). -/
def execPostStationLost (post : Nat) (s : State) : Host.Outcome State Fault Refusal :=
  s.run fun p => p.postFallsSilent post

end Sys2Proof.Machine
end

