-- ==== Sys2Proof/Machine/WellCommands.lean ====
section
/-! DEFINITION. The meanings of the commands of the well slides and the floor shutters: one definition for each. -/

namespace Sys2Proof.Machine

/-- SLIDE_POSITION: by the role of its source (R34, R118, R119). -/
def execSlidePosition (f : From) (pos : SlidePos) (s : State) : Host.Outcome State Fault Refusal :=
  s.run fun p => p.takeReport f.port f.source (some (.slide pos))

/-- SLIDE_TRAVEL_TIMEOUT: ahead of the coming cycle start (R120, log 4). -/
def execSlideTravelTimeout (plane : Nat) (s : State) : Host.Outcome State Fault Refusal :=
  s.run fun p => p.slideRunsOut plane

/-- SLIDE_STATION_LOST: ahead of the coming cycle start (R121, log 4). -/
def execSlideStationLost (plane : Nat) (s : State) : Host.Outcome State Fault Refusal :=
  s.run fun p => p.slideFallsSilent plane

/-- SHUTTER_POSITION: by the role of its source (R34, R129). -/
def execShutterPosition (f : From) (pos : ShutterPos) (s : State) : Host.Outcome State Fault Refusal :=
  s.run fun p => p.takeReport f.port f.source (some (.shutter pos))

/-- SHUTTER_TRAVEL_TIMEOUT: ahead of the coming cycle start (R130, log 4). -/
def execShutterTravelTimeout (entry : Nat) (s : State) : Host.Outcome State Fault Refusal :=
  s.run fun p => p.shutterRunsOut entry

/-- SHUTTER_STATION_LOST: ahead of the coming cycle start (R130, log 4). -/
def execShutterStationLost (entry : Nat) (s : State) : Host.Outcome State Fault Refusal :=
  s.run fun p => p.shutterFallsSilent entry

/-- ESCAPE_HOLD_EXPIRED: ahead of the coming cycle start (R133, log 4). -/
def execEscapeHoldExpired (compartment : Nat) (s : State) : Host.Outcome State Fault Refusal :=
  s.run fun p => p.escapeRunsOut compartment

/-- DROP_NOW: by the role of its source (R34, R134, R173). -/
def execDropNow (f : From) (mask : Byte) (s : State) : Host.Outcome State Fault Refusal :=
  s.run fun p => p.takeReport f.port f.source (some (.dropNow mask.toNat))

end Sys2Proof.Machine
end

