-- ==== Sys2Proof/Machine/Dispatch.lean ====
section
/-! DEFINITION. One arm for each command: its meaning. -/

namespace Sys2Proof.Machine

def exec (i : Instr) (s : State) : Host.Outcome State Fault Refusal :=
  match i with
  | .powerUp strap alarm => Sys2Proof.Machine.execPowerUp strap alarm s
  | .cycleStart alarm => Sys2Proof.Machine.execCycleStart alarm s
  | .alarmAsserted => Sys2Proof.Machine.execAlarmAsserted s
  | .alarmReleased => Sys2Proof.Machine.execAlarmReleased s
  | .endOfPeriodicMark => Sys2Proof.Machine.execEndOfPeriodicMark s
  | .burstFrameSent port => Sys2Proof.Machine.execBurstFrameSent port s
  | .frameReceived port bytes => Sys2Proof.Machine.execFrameReceived port bytes s
  | .outputGrant port => Sys2Proof.Machine.execOutputGrant port s
  | .agentPortSlotTaken => Sys2Proof.Machine.execAgentPortSlotTaken s
  | .frameAged place => Sys2Proof.Machine.execFrameAged place s
  | .holdAgeExpired n => Sys2Proof.Machine.execHoldAgeExpired n s
  | .gateEffective gate => Sys2Proof.Machine.execGateEffective gate s
  | .trainingTimeout port => Sys2Proof.Machine.execTrainingTimeout port s
  | .portSilent port => Sys2Proof.Machine.execPortSilent port s
  | .overcurrent => Sys2Proof.Machine.execOvercurrent s
  | .cooldownExpired => Sys2Proof.Machine.execCooldownExpired s
  | .claim c => Sys2Proof.Machine.execClaim c s
  | .release c => Sys2Proof.Machine.execRelease c s
  | .force c => Sys2Proof.Machine.execForce c s
  | .read c object first => Sys2Proof.Machine.execRead c object first s
  | .load c table first data => Sys2Proof.Machine.execLoad c table first data s
  | .commit c table => Sys2Proof.Machine.execCommit c table s
  | .beginService c => Sys2Proof.Machine.execBeginService c s
  | .setClock c second => Sys2Proof.Machine.execSetClock c second s
  | .portEnable c port => Sys2Proof.Machine.execPortEnable c port s
  | .portDisable c port => Sys2Proof.Machine.execPortDisable c port s
  | .gateSet c cls => Sys2Proof.Machine.execGateSet c cls s
  | .gateClear c cls => Sys2Proof.Machine.execGateClear c cls s
  | .start c => Sys2Proof.Machine.execStart c s
  | .stop c => Sys2Proof.Machine.execStop c s
  | .clearTrip c => Sys2Proof.Machine.execClearTrip c s
  | .openSlides c => Sys2Proof.Machine.execOpenSlides c s
  | .restore c => Sys2Proof.Machine.execRestore c s
  | .clearFault c => Sys2Proof.Machine.execClearFault c s
  | .clearCounters c => Sys2Proof.Machine.execClearCounters c s
  | .testPlay c post kind code repeats => Sys2Proof.Machine.execTestPlay c post kind code repeats s
  | .reset c => Sys2Proof.Machine.execReset c s
  | .resetFrame f => Sys2Proof.Machine.execResetFrame f s
  | .subscribe c conditions falling => Sys2Proof.Machine.execSubscribe c conditions falling s
  | .unsubscribe c => Sys2Proof.Machine.execUnsubscribe c s
  | .unknownOrder c code args => Sys2Proof.Machine.execUnknownOrder c code args s
  | .chainPosition f position speed state edge => Sys2Proof.Machine.execChainPosition f position speed state edge s
  | .driveState f state => Sys2Proof.Machine.execDriveState f state s
  | .landingEdgeTrip f => Sys2Proof.Machine.execLandingEdgeTrip f s
  | .chainRecordStale => Sys2Proof.Machine.execChainRecordStale s
  | .clearingTimerExpired => Sys2Proof.Machine.execClearingTimerExpired s
  | .planCompleted => Sys2Proof.Machine.execPlanCompleted s
  | .poll f cycle => Sys2Proof.Machine.execPoll f cycle s
  | .channelGrant => Sys2Proof.Machine.execChannelGrant s
  | .retryRebuild channel => Sys2Proof.Machine.execRetryRebuild channel s
  | .confirm f toggle result => Sys2Proof.Machine.execConfirm f toggle result s
  | .replyWindowExpired channel => Sys2Proof.Machine.execReplyWindowExpired channel s
  | .slidePosition f pos => Sys2Proof.Machine.execSlidePosition f pos s
  | .slideTravelTimeout plane => Sys2Proof.Machine.execSlideTravelTimeout plane s
  | .slideStationLost plane => Sys2Proof.Machine.execSlideStationLost plane s
  | .shutterPosition f pos => Sys2Proof.Machine.execShutterPosition f pos s
  | .shutterTravelTimeout entry => Sys2Proof.Machine.execShutterTravelTimeout entry s
  | .shutterStationLost entry => Sys2Proof.Machine.execShutterStationLost entry s
  | .escapeHoldExpired compartment => Sys2Proof.Machine.execEscapeHoldExpired compartment s
  | .dropNow f mask => Sys2Proof.Machine.execDropNow f mask s
  | .postReady f => Sys2Proof.Machine.execPostReady f s
  | .postDone f completed => Sys2Proof.Machine.execPostDone f completed s
  | .postHalted f completed => Sys2Proof.Machine.execPostHalted f completed s
  | .presence f => Sys2Proof.Machine.execPresence f s
  | .playDeadlineExpired post => Sys2Proof.Machine.execPlayDeadlineExpired post s
  | .postStationLost post => Sys2Proof.Machine.execPostStationLost post s
  | .call f cls toggle code posts rounds interval => Sys2Proof.Machine.execCall f cls toggle code posts rounds interval s
  | .roundDue id => Sys2Proof.Machine.execRoundDue id s
  | .acknowledge f form id => Sys2Proof.Machine.execAcknowledge f form id s
  | .clockAdvance => Sys2Proof.Machine.execClockAdvance s
  | .fireZoneAlarm f zone => Sys2Proof.Machine.execFireZoneAlarm f zone s
  | .fireZoneClear f zone => Sys2Proof.Machine.execFireZoneClear f zone s
  | .streamTimerExpired => Sys2Proof.Machine.execStreamTimerExpired s
  | .firePanelLost station => Sys2Proof.Machine.execFirePanelLost station s

end Sys2Proof.Machine
end

