-- ==== Sys2Proof/Safety.lean ====
section
/-! DEFINITION. The terms in which the claims speak: what a command's outcome must satisfy, what of the part a frame compares, the
reply and the fault a rule asks for, and the laws that every step keeps. -/

namespace Sys2Proof.Machine

/-! ## Outcomes -/

/-- The command completes: `exec` answers a next state with the same queue of commands, whose part satisfies `post`. -/
def Gives (i : Instr) (s : State) (post : Part → Prop) : Prop :=
  ∃ t, exec i s = .next t ∧ t.pending = s.pending ∧ post t.part

/-! ## What a frame compares

Every command may send frames of the part itself (replies, notices, answers) and lets the part bring up to date what must hold at
every moment (log 21). `steady` leaves exactly that aside; the others leave one block's records aside as well. -/

/-- A slide record without a pending Close's move, which ends with the Close (R122). -/
def SlideRecord.withoutClose (r : SlideRecord) : SlideRecord :=
  if r.move = some SlideMove.close then { r with move := none } else r

/-- The part but for its own frames (output, Agent Port, notice sequences and losses) and for what is brought up to date after every
command: staged permit and waiting Poll, pending Closes, eligibility of held frames, gate effectiveness. -/
def Part.steady (p : Part) : Part :=
  { p with
    sent := []
    agent := {}
    notices := {}
    hold := p.hold.map fun e => { e with eligible := false, target := [] }
    gates := { p.gates with signalEffective := false, serviceEffective := false }
    orders := p.orders.filter fun o => o.order ≠ .slideClose
    slides := p.slides.map (Option.map SlideRecord.withoutClose)
    chain := { p.chain with
      staged := {}, evaluated := false, evalPlan := none, waitingPoll := none, lateAnswers := 0, pollOverruns := 0 } }

/-- An order of the floor shutters. -/
def PendingOrder.ofShutter (o : PendingOrder) : Bool :=
  match o.record with
  | .shutter _ => true
  | .lamp => false
  | .slide _ => false
  | .post _ => false

/-- An order of the signal posts. -/
def PendingOrder.ofPost (o : PendingOrder) : Bool :=
  match o.record with
  | .post _ => true
  | .lamp => false
  | .slide _ => false
  | .shutter _ => false

/-- `steady` without what the Chain Supervisor and its neighbours change with the drive mode: chain, park computer, lamp and slide
orders, the slides' ordered moves, withheld marks, faults. The slides' states stay. -/
def Part.offChain (p : Part) : Part :=
  let p := p.steady
  { p with
    chain := {}
    park := {}
    withheld := []
    moves := 0
    faults := {}
    orders := p.orders.filter fun o => o.ofShutter || o.ofPost
    slides := p.slides.map (Option.map fun r => { r with move := none, moveAt := 0 }) }

/-- `offChain` without the slide records. -/
def Part.offSlides (p : Part) : Part := { p.offChain with slides := [] }

/-- `steady` without the floor shutters: records, sequences, orders, faults. -/
def Part.offShutters (p : Part) : Part :=
  let p := p.steady
  { p with shutters := [], sequences := [], faults := {}, orders := p.orders.filter fun o => !o.ofShutter }

/-- `steady` without the signal posts: records, counters, orders, channels, faults, and the tallies of outcomes that their items give. -/
def Part.offPosts (p : Part) : Part :=
  let p := p.steady
  { p with
    posts := []
    postCounts := []
    channels := []
    faults := {}
    orders := p.orders.filter fun o => !o.ofPost
    calls := p.calls.map fun c => { c with completed := 0, lost := 0 }
    day := { p.day with steps := p.day.steps.map fun r => { r with completed := 0, lost := 0 } }
    fire := { p.fire with streamCompleted := 0, streamLost := 0 } }

/-- What no agent's record enters: cycle, ports, cooldown, held frames, gate settings, toggles, stale Confirms, claim cell, tables,
copies, last call id and unmatched acknowledges. -/
def Part.line (p : Part) : Part :=
  let p := p.steady
  { p with
    orders := [], channels := [], builds := 0, moves := 0, chain := {}, park := {}, slides := [], withheld := []
    shutters := [], sequences := [], posts := [], postCounts := [], calls := [], day := {}, fire := {}, faults := {}, ahead := [] }

/-- `line` without the three external ports. -/
def Part.offPorts (p : Part) : Part := { p.line with portN := {}, portS := {}, portW := {} }

/-- A port without what a cycle start moves: its counts, the ages of its frames, what is left of a burst. -/
def Port.uncounted (x : Port) : Port :=
  { x with
    training := 0, silence := 0, burstLeft := 0
    slots := x.slots.map fun y => { y with age := 0 }
    queue := x.queue.map fun y => { y with age := 0 } }

/-- `steady` without what a cycle start moves: the cycle's own fields, the ages, the counts and the timers. -/
def Part.uncounted (p : Part) : Part :=
  let p := p.steady
  { p with
    beforeFirst := false, cycle := 0, periodic := false, markCode := 0, cooldown := 0, ahead := []
    portN := p.portN.uncounted, portS := p.portS.uncounted, portW := p.portW.uncounted
    hold := p.hold.map fun e => { e with age := 0 }
    channels := p.channels.map fun ch => { ch with timer := 0 }
    chain := { p.chain with reportTaken := false, clearing := 0 }
    slides := p.slides.map (Option.map fun r => { r with timer := 0, silence := 0 })
    shutters := p.shutters.map (Option.map fun r => { r with timer := 0, silence := 0 })
    sequences := p.sequences.map fun r => { r with timer := 0 }
    posts := p.posts.map (Option.map fun r => { r with deadline := 0, silence := 0 })
    calls := p.calls.map fun c => { c with nextRound := 0 }
    day := { p.day with sub := 0, alarmRun := 0 }
    fire := { p.fire with streamTimer := 0, panels := [] } }

/-- Nothing is about to act at a cycle start with the ALARM contact's level: the mark has passed and no frame is being sent, no plan is
in progress, no retry is due, and no age, count, timer or countdown reaches its end. -/
def Part.calm (p : Part) (level : Bool) : Prop :=
  p.periodic = false ∧ p.park.inProgress = none ∧ level = p.day.alarm ∧ (p.day.clockSet = true → p.day.sub < 49) ∧
  (∀ q, let x := p.port q
    x.sending = none ∧ (∀ y ∈ x.slots, y.age < p.ageLimit) ∧ (∀ y ∈ x.queue, y.age < p.ageLimit) ∧
    (x.state = .training → x.training < 10) ∧ (x.state = .up → min 255 (x.silence + 1) < p.silenceLimit)) ∧
  (∀ y ∈ p.agent.slots, y.age < p.ageLimit) ∧ (∀ e ∈ p.hold, e.age < p.holdLimit) ∧
  (∀ c ∈ channelNumbers, let ch := p.channel c
    ch.retryDue = false ∧ (ch.state = .awaiting ∨ ch.state = .halting → 1 < ch.timer)) ∧
  (p.chain.mode = .lastCall → 1 < p.chain.clearing) ∧
  (∀ k ∈ planeNumbers, ∀ r ∈ p.slide k, r.silence ≠ 49 ∧ (r.state = .closing ∨ r.state = .opening → 1 < r.timer)) ∧
  (∀ k ∈ shutterNumbers, ∀ r ∈ p.shutterRec k, r.silence ≠ 49 ∧ (r.state = .lowering ∨ r.state = .raising → 1 < r.timer)) ∧
  (∀ c ∈ compartments, (p.seq c).timer ≠ 1) ∧
  (∀ k ∈ postNumbers, ∀ r ∈ p.post k, r.silence ≠ 49 ∧ (r.state = .playing ∨ r.state = .halting → 1 < r.deadline)) ∧
  (∀ c ∈ p.calls, 1 < c.nextRound) ∧ (∀ st ∈ p.panelStations, p.panelSilence st ≠ 49) ∧
  (p.fire.streamOn = true → 1 < p.fire.streamTimer)

/-- The part with port `q`'s record replaced. -/
def Part.withPort (p : Part) (q : PortId) (x : Port) : Part := p.modPort q fun _ => x

/-! ## Replies, lamps, faults -/

/-- A frame of the part's own that had a free Agent Port slot and a route stands in a slot with that route's target set (R28, R38). That
frames waiting for a slot do not go before it is the model's choice (logs 5 and 74). -/
def Part.carries (t p : Part) (f : Frame) : Prop :=
  p.agentRoom f.cls = true → ∀ ps, p.resolve none (p.routeFor f.dest) = .target ps →
    ∃ x ∈ t.agent.slots, x.frame = f ∧ x.target = ps

/-- The Manage Reply of R180 to the order of a code: result, holder, data. -/
def Part.replyFrame (p : Part) (c : Ctx) (code : Nat) (r : ManageResult) (holder : Nat) (data : List Byte) : Frame :=
  builtFrame p.own c.source c.cls kindReply false false
    ([byteOf code, byteOf (manageResultCode r), byteOf holder] ++ data)

/-- An order answered by R180: where R12 asks for a reply, the part carries it. -/
def Part.replied (t p : Part) (c : Ctx) (code : Nat) (r : ManageResult) (holder : Nat) (data : List Byte) : Prop :=
  (r ≠ .done ∨ c.replyWanted = true ∨ code = 4) → t.carries p (p.replyFrame c code r holder data)

/-- As `replied`, where the order's own effects may have sent frames before its reply: the part carries the reply, or it waits for a slot. -/
def Part.orderAnswered (t p : Part) (c : Ctx) (code : Nat) (r : ManageResult) : Prop :=
  (r ≠ .done ∨ c.replyWanted = true ∨ code = 4) → ∀ ps, p.resolve none (p.routeFor c.source) = .target ps →
    (∃ x ∈ t.agent.slots, x.frame = p.replyFrame c code r 0 []) ∨ ∃ w ∈ t.agent.waiting, w.frame = p.replyFrame c code r 0 []

/-- A refused order: the part as it was, and its reply. -/
def Part.refuses (t p : Part) (c : Ctx) (code : Nat) (r : ManageResult) : Prop :=
  t.steady = p.steady ∧ t.replied p c code r 0 []

/-- A Notice of a condition for a station, with a notice sequence (12.4, R184). -/
def Part.letter (p : Part) (st : Station) (seq : Nat) (c : Condition) (falling : Bool) (details : List Byte) : Frame :=
  builtFrame p.own st .signal kindNotice false false
    ([byteOf (conditionCode c + if falling then 128 else 0), byteOf seq] ++ pairOf p.cycle ++ details)

/-- The Notices that one raising of a condition brings, in place order, each with its place (R184): one for every subscriber whose condition
set holds the condition and, for a falling edge, whose falling-edge set holds it, with the place's notice sequence before the increase made
for it (DESIGN CHOICE, log 68). -/
def Part.letters (p : Part) (c : Condition) (falling : Bool) (details : List Byte) : List (Nat × Frame) :=
  let told := placeNumbers.filter fun i => (p.place i).station ≠ 0 && bitOf (p.place i).conditions (conditionCode c - 1) &&
    (!falling || bitOf (p.place i).falling (fallingBit c))
  told.map fun i => (i, p.letter (p.place i).station (p.notices.sequences.getD (i - 1) 0) c falling details)

/-- Whether a frame of the part's own has a route with a port to take it (R36, R38). -/
def Part.reaches (p : Part) (f : Frame) : Bool :=
  match p.resolve none (p.routeFor f.dest) with
  | .target _ => true
  | .discard _ => false

/-- Notices built one after another, each for the place it is paired with, 0 for none (R184): each steps its place's sequence; each is
offered to the Agent Port once, and stands in a slot where two were free and its route has a port, or is counted as lost where two were
not free. -/
def Part.noticed (t p : Part) (letters : List (Nat × Frame)) : Prop :=
  let taken := fun n : Nat => p.agent.slots.length + ((letters.take n).filter fun x => p.reaches x.2).length
  (p.notices.sequences.length = 4 → ∀ i ∈ placeNumbers,
    let old := p.notices.sequences.getD (i - 1) 0
    let built := (letters.filter fun x => x.1 = i).length
    t.notices.sequences.getD (i - 1) 0 = if built = 0 then old else (old + built) % 256) ∧
  (∀ n < letters.length, ∀ x ∈ letters[n]?, taken n ≤ 6 → ∀ ps, p.resolve none (p.routeFor x.2.dest) = .target ps →
    ∃ y ∈ t.agent.slots, y.frame = x.2 ∧ y.target = ps) ∧
  (p.notices.lost ≤ 65535 →
    t.notices.lost = min 65535 (p.notices.lost + ((List.range letters.length).filter fun n => 7 ≤ taken n).length))

/-- The part stands as every command leaves it, with nothing left to bring up to date (log 21). -/
def Part.quiet (p : Part) : Prop := p.settle = p

/-- The lamp order that a drive mode requiring the lamps on or off places when the Roles table names a drive station and the state last
ordered differs (R92), and the state last ordered then. -/
def Part.lampsOrdered (t p : Part) (on : Bool) : Prop :=
  ∀ st ∈ p.driveStation,
    t.chain.lamp = some on ∧
    (p.chain.lamp ≠ some on →
      t.pendingOrder .lamp =
        some { record := .lamp, target := st, order := if on then .lampsOn else .lampsOff, cls := .drive, placed := p.cycle })

/-- The gates' effectiveness by R54: closed, and effective already or without a received frame of the class in the part. -/
def Part.gatesFollow (t p : Part) : Prop :=
  t.gates.signalEffective = (t.gates.signalSet && (p.gates.signalEffective || !p.receivedRemains .signal)) ∧
  t.gates.serviceEffective = ((t.gates.serviceSet || t.day.mode = .evacuation) &&
    (p.gates.serviceEffective || !p.receivedRemains .service))

/-- Every enabled plane's slide record exists and is Open. -/
def Part.wellOpen (p : Part) : Prop := ∀ k ∈ p.enabledPlanes, ∃ r ∈ p.slide k, r.state = .opened

/-! ## The store mode and the chain -/

/-- The wanted park set is the one the store mode calls for (R83). -/
def Part.wantedByMode (p : Part) : Prop :=
  p.wantedSet = planeNumbers.filter fun k =>
    (p.plane k).inUse && (p.plane k).flagEnabled &&
      (p.day.mode = .evacuation || (p.day.mode = .closed || p.day.mode = .night) && (p.plane k).night)

/-- The computed mode is Closed without a clock or a step, else the mode of the latest step at or before the second count, or else of the
latest of the day; steps in force have rising times (R166, R168). -/
def Part.modeByClock (p : Part) : Prop :=
  (p.day.clockSet = false ∨ p.steps = [] → p.computedMode = .closed) ∧
  (p.day.clockSet = true → (p.steps.map fun x => x.time).Pairwise (· < ·) → ∀ st ∈ p.steps,
    (st.time ≤ p.day.second ∧ ∀ x ∈ p.steps, x.time ≤ p.day.second → x.time ≤ st.time) ∨
      (∀ x ∈ p.steps, p.day.second < x.time ∧ x.time ≤ st.time) →
    p.computedMode = match st.action with
      | .opening => .trading
      | .warning => .warning
      | .lastCall => .lastCall
      | .closing => .closed
      | .night => .night)

/-- The pointer as R167 sets it afresh: none while the clock is Unset, else the first step later than the second count, or the first. -/
def Part.pointsAfresh (p : Part) : Prop :=
  p.day.pointer = if p.day.clockSet then
      match p.steps.find? fun x => p.day.second < x.time with
      | some x => some x.number
      | none => p.steps.head?.map fun x => x.number
    else none

/-- The start conditions (R81). -/
def Part.startsNow (p : Part) : Prop :=
  p.wellOpen ∧ p.chain.record.freshness = .fresh ∧ (p.day.mode = .trading ∨ p.day.mode = .warning)

/-- A chain that comes to Halted or stands there, with no wanted set to stop for: it runs if it is armed and the start conditions hold
(R81), else it is Halted. -/
def Part.haltedStarts (t p : Part) (armed : Bool) : Prop :=
  (armed = true ∧ t.startsNow → t.chain.mode = .running ∧ t.lampsOrdered p true) ∧
  (¬(armed = true ∧ t.startsNow) → t.chain.mode = .halted ∧
    (p.chain.mode ≠ .halted →
      t.lampsOrdered p false ∧ t.chain.parkSet = [] ∧ t.chain.unclosable = [] ∧ t.chain.plan = none))

/-- The Halted test (R84) on a chain that comes to Halted or stands there: with a wanted set, a Fresh record and speed 0 it is Parked where
it is clear, else Stopping with a first plan asked at creep; without, the armed start is tested. -/
def Part.haltedFollows (t p : Part) (armed : Bool) : Prop :=
  let r := t.chain.record
  let w := t.wantedSet
  let due := w ≠ [] ∧ r.freshness = .fresh ∧ r.v = 0
  let clear := ∀ k ∈ w, t.planeClear k r.x = true
  (due → clear →
    t.chain.mode = .parked ∧ t.chain.parkSet = w ∧ t.chain.unclosable = [] ∧ t.chain.plan = none ∧
    (p.chain.mode ≠ .halted → t.lampsOrdered p false)) ∧
  (due → ¬clear →
    t.chain.mode = .stopping ∧ t.chain.parkSet = w ∧ t.chain.unclosable = [] ∧ t.chain.plan = none ∧ t.chain.replans = 0 ∧
    t.chain.stopStage = .creep ∧ t.lampsOrdered p false ∧
    t.park.inProgress = some { number := (p.park.lastRequest + 1) % 65536, parkSet := w, x := r.x, v := 0, stage := .creep,
                               speed := (t.chainParams.getD default).creep }) ∧
  (¬due → t.haltedStarts p armed)

/-- The park set follows the wanted set in Stopping (R87): a subset keeps the plan, anything else asks a plan at once from the record's x
and v, at the stage of the plan in force or asked for; the re-plan count stays. -/
def Part.stopFollows (t p : Part) : Prop :=
  let c := p.chain
  let w := t.wantedSet
  let stage := match c.plan with
    | some pl => pl.stage
    | none => c.stopStage
  t.chain.mode = .stopping ∧ t.chain.plan = c.plan ∧ t.chain.replans = c.replans ∧
  (w = p.wantedSet →
    t.chain.parkSet = c.parkSet ∧ t.chain.unclosable = c.unclosable ∧ t.park.inProgress = p.park.inProgress) ∧
  (w ≠ p.wantedSet →
    t.chain.parkSet = w ∧ t.chain.unclosable = c.unclosable.filter (fun k => k ∈ w) ∧
    ((∀ k ∈ w, k ∈ c.parkSet) → t.park.inProgress = p.park.inProgress) ∧
    (¬(∀ k ∈ w, k ∈ c.parkSet) → t.park.inProgress =
      some { number := (p.park.lastRequest + 1) % 65536, parkSet := w, x := c.record.x, v := c.record.v, stage,
             speed := if stage = .run then c.record.v else (p.chainParams.getD default).creep }))

/-- The park set in Parked (R88, R110): kept while the wanted set is the same or shrinks; when it grows, the union, an added plane that is
not clear being marked, with its fault. -/
def Part.parkFollows (t p : Part) : Prop :=
  let c := p.chain
  let w := t.wantedSet
  let keeps := w = p.wantedSet ∨ ∀ k ∈ w, k ∈ c.parkSet
  let blocked := fun k => k ∈ w ∧ k ∉ c.parkSet ∧ t.planeClearHere k = false
  t.chain.mode = .parked ∧
  (keeps → t.chain.parkSet = c.parkSet ∧ t.chain.unclosable = c.unclosable) ∧
  (¬keeps →
    t.chain.parkSet = planeNumbers.filter (fun k => k ∈ c.parkSet ∨ k ∈ w) ∧
    t.chain.unclosable = planeNumbers.filter (fun k => k ∈ c.parkSet ∧ k ∈ c.unclosable ∨ blocked k) ∧
    ((∃ k ∈ w, blocked k) → t.faults.first ≠ none))

/-- What a change of store mode brings to the chain (R81, R82, R84, R87, R88). A cancelled clearing timer is 0 (DESIGN CHOICE, log 53). -/
def Part.chainFollowsMode (t p : Part) : Prop :=
  let c := p.chain
  let w := t.wantedSet
  let trading := t.day.mode = .trading ∨ t.day.mode = .warning
  let leaves := w = [] ∧ p.wantedSet ≠ [] ∧ t.wellOpen
  t.wantedByMode ∧ t.chain.record = c.record ∧ (¬trading → t.chain.armed = false) ∧
  (c.mode = .running → trading → t.chain.mode = .running) ∧
  (c.mode = .running → ¬trading →
    t.chain.mode = .lastCall ∧ t.chain.clearing = (p.chainParams.getD default).clearing * 50 ∧ t.lampsOrdered p false) ∧
  (c.mode = .lastCall → trading → t.chain.mode = .running ∧ t.chain.clearing = 0 ∧ t.lampsOrdered p true) ∧
  (c.mode = .lastCall → ¬trading → t.chain.mode = .lastCall ∧ t.chain.clearing = c.clearing) ∧
  (c.mode = .stopping → t.stopFollows p) ∧
  (c.mode = .parked → leaves → t.haltedStarts p c.armed) ∧
  (c.mode = .parked → ¬leaves → t.parkFollows p) ∧
  (c.mode = .halted → t.haltedFollows p c.armed) ∧
  (c.mode = .tripped → t.chain.mode = .tripped)

/-- A Poll that waits on a live port is answered from the staged permit as the command leaves it (R96, R98), to the Poll's source, also where
a Roles commit has named another drive station (DESIGN CHOICE, log 57). -/
def Part.pollAnswered (t p : Part) (late : Bool) : Prop :=
  ∀ w ∈ p.chain.waitingPoll, (p.port w.port).state.live = true →
    t.chain.waitingPoll = none ∧
    (w.port, builtFrame p.own w.source .drive kindAnswer false false
      (answerPayload w.cycle t.chain.staged.stage t.chain.staged.target t.chain.mode late false)) ∈ t.sent

/-- The tests for closing made in Parked on every plane of the closable set (R122, R123), with the slides and the withheld marks as they were
before: a Close is placed on each enabled plane of a Fresh record whose slide is Open with no move, whose station is not ordered Open, and
which is clear with every plane of its station; one that another plane of its station keeps from closing is found withheld, the first time
with its fault, after the faults entered before. That nothing is found withheld on a record other than Fresh is log 52. -/
def Part.closesTested (t p : Part) (before : FaultRecord) : Prop :=
  let closable := t.chain.parkSet.filter fun k => k ∉ t.chain.unclosable
  let clear := fun k => t.planeClear k t.chain.record.x
  let beside := fun k => planeNumbers.filter fun j => (p.plane j).inUse && (p.plane j).station = (p.plane k).station
  let tested := fun k => closable.contains k && (p.plane k).enabled && t.chain.record.freshness = .fresh
  let ready := fun k => tested k && clear k && (beside k).all clear &&
    (p.slide k).any (fun r => r.state = .opened && r.move = none) && p.stationMove (p.plane k).station ≠ some .openMove
  let found := fun k => tested k && !p.withheld.contains k && (beside k).any fun j => j ≠ k && !clear j
  (∀ k ∈ planeNumbers,
    (ready k = true →
      t.pendingOrder (.slide k) = some
        { record := .slide k, target := (p.plane k).station, order := .slideClose, cls := .safety, placed := p.cycle } ∧
      (t.slide k).map (fun r => r.move) = some (some .close)) ∧
    (ready k = false → ∀ o, t.pendingOrder (.slide k) = some o → o ∈ p.orders) ∧
    (k ∈ t.withheld ↔ k ∈ p.withheld ∨ found k = true)) ∧
  (closable.Nodup → t.faults = (closable.filter found).foldl (fun fr k =>
    fr.enter { code := .slideWithheld, cycle := p.cycle, station := (p.plane k).station }) before)

/-- What a commit of the Plane Table brings to a chain that is not moving (R81, R84, R88, R116); that a wanted park set which grows in Parked
marks planes, with their faults, is log 69. -/
def Part.chainFollowsPlanes (t p : Part) : Prop :=
  let c := p.chain
  let w := t.wantedSet
  t.wantedByMode ∧ t.chain.record = c.record ∧
  (c.mode = .halted → w ≠ p.wantedSet → t.haltedFollows p c.armed) ∧
  (c.mode = .halted → w = p.wantedSet → t.haltedStarts p c.armed) ∧
  (c.mode = .parked → w = [] ∧ t.wellOpen → t.haltedStarts p c.armed) ∧
  (c.mode = .parked → ¬(w = [] ∧ t.wellOpen) → t.parkFollows p) ∧
  (c.mode = .tripped → t.chain.mode = .tripped)

/-! ## The Relay -/

/-- A pass rule entry in use accepts a frame under a store mode (R39). -/
def ruleApplies (e : List Byte) (f : Frame) (m : StoreMode) : Prop :=
  1 ≤ byteAt e 0 ∧ byteAt e 0 ≤ 6 ∧ (byteAt e 1 = 0 ∨ byteAt e 1 = f.source) ∧ (byteAt e 2 = 128 ∨ byteAt e 2 = f.dest) ∧
  bitOf (byteAt e 3) (clsCode f.cls) = true ∧ (byteAt e 4 = 16 ∨ byteAt e 4 = f.kind) ∧ bitOf (byteAt e 5) (storeModeCode m) = true

/-- The agent that R33 and R34 name for a frame, of the six of R41. -/
def Part.ownerOf (p : Part) (f : Frame) : Option Agent :=
  let from_ := fun r => f.kind = 1 ∧ p.role f.source = some r
  if f.kind = 2 ∨ from_ .drive then some .chainSupervisor
  else if from_ .slide ∨ from_ .shutter then some .shutterSequencer
  else if from_ .post then some .postUnit
  else if f.kind = 6 ∨ f.kind = 7 then some .callUnit
  else if from_ .firePanel then some .dayUnit
  else if f.kind = 9 ∨ f.kind = 11 then some .managementAgent
  else none

/-- The part after a frame of port `q` is routed (R36, R37): it takes a slot with its target set, or is counted. -/
def Part.onward (p : Part) (q : PortId) (g : Frame) (r : Route) : Part :=
  let ups := portIds.filter fun a => a ≠ q ∧ (p.port a).state = .up
  let slot := fun ps => p.modPort q fun x =>
    { x with slots := x.slots ++ [{ frame := g, builder := .station, target := ps, age := 0, arrived := p.cycle }] }
  match r with
  | .none => p.count q .unroutable
  | .port a => if a = q then p.count q .localRoute else if a ∈ ups then slot [a] else p.count q .unroutable
  | .flood => if ups = [] then p.count q .unroutable else slot ups

/-- The part after the disposition of a transit frame (R32): gated (R53), or by its action (R40 to R43). -/
def Part.passedOn (p : Part) (q : PortId) (f : Frame) (a : Action) : Part :=
  let route := if f.dest = 0 then Route.flood else p.route f.dest
  if f.cls = .signal ∧ p.gates.signalSet = true ∨ f.cls = .service ∧ (p.gates.serviceSet = true ∨ p.day.mode = .evacuation) then
    p.count q .gated
  else
    match a with
    | .pass | .copy _ => p.onward q f route
    | .drop => p.count q .ruleDrop
    | .take x => if x ≠ none ∧ p.ownerOf f = x then p else p.count q .badForm
    | .redirect d => p.onward q (withCheck { f with dest := d }) (p.route d)
    | .hold none => p.count q .unroutable
    | .hold (some condition) =>
      if route = .none then p.count q .unroutable
      else if route = .port q then p.count q .localRoute
      else if 4 ≤ p.hold.length then p.count q .holdFull
      else { p with hold := p.hold ++
        [p.evaluateHeld { frame := f, arrival := q, condition, route, age := 0, eligible := false, target := [] }] }

/-- The Reports of a fire panel station that the tap's copy brings to the Day Unit (R35, R173). -/
def tapTakes : Instr → Bool
  | .fireZoneAlarm _ z => 1 ≤ z && z ≤ 16
  | .fireZoneClear _ z => 1 ≤ z && z ≤ 16
  | .dropNow _ _ => true
  | .presence _ => true
  | _ => false

/-- Place `n` of an input holds a frame that the input could offer: its every target queue has space, and in the Hold List it is eligible
(R46, R47). -/
def Part.couldOffer (p : Part) (i : Input) (n : Nat) (f : Queued) (target : List PortId) : Prop :=
  (match i with
    | .port a => ∃ sl ∈ (p.port a).slots[n]?,
      target = sl.target ∧ f = { frame := sl.frame, builder := sl.builder, arrival := i, age := sl.age }
    | .agent => ∃ sl ∈ p.agent.slots[n]?,
      target = sl.target ∧ f = { frame := sl.frame, builder := sl.builder, arrival := i, age := sl.age }
    | .hold => ∃ e ∈ p.hold[n]?,
      e.eligible = true ∧ target = e.target ∧ f = { frame := e.frame, builder := .station, arrival := i, age := 0 }) ∧
  ∀ a ∈ target, (p.port a).queue.length < 8 ∧ (p.port a).state.live = true

/-- Port `q`'s queue flushed (R21, R22), with the frame its burst was sending where that is cut short: the counter holds them, up to 65,535,
and the channel whose order lost its only copy so, with none transmitted, acts by R64: a retry is due, or the tries are at an end, or its
halt is done. What an ended order's transmitted and timer read is log 40. -/
def Part.flushes (t p : Part) (q : PortId) (cut : Bool) : Prop :=
  let holds := fun (fs : List Queued) (x : Builder) => ∃ f ∈ fs, f.builder = x
  let sending := (p.port q).sending.toList
  let gone := (p.port q).queue ++ if cut then sending else []
  ((p.port q).counters.flushed ≤ 65535 →
    (t.port q).counters.flushed = min 65535 ((p.port q).counters.flushed + gone.length)) ∧
  ∀ c ∈ channelNumbers, p.channels.length = 12 →
    let ch := p.channel c
    let x := Builder.channel c ch.build
    holds gone x → cut = true ∨ ¬holds sending x →
    (∀ a, a ≠ q → ¬holds ((p.port a).queue ++ (p.port a).sending.toList) x) →
    (∀ sl ∈ p.agent.slots, sl.builder ≠ x) → (∀ w ∈ p.agent.waiting, w.builder ≠ x) →
    (∀ d ∈ channelNumbers, d ≠ c → (p.channel d).record ≠ ch.record) → ch.stage = .unsent →
    (ch.state = .sending → 1 ≤ ch.triesLeft → t.channel c = { ch with retryDue := true, stage := .none }) ∧
    (ch.state = .sending → ch.triesLeft = 0 → t.channel c = ch.finish .noReply) ∧
    (ch.state = .halting → t.channel c = ch.finish .halted)

/-! ## The owners of orders -/

/-- A post record without a current item, a test item's outcome kept (R139, R142); its play deadline is 0 (log 53), and pre-empt wanted goes
with the item (log 64). -/
def Post.without (r : Post) (o : ItemOutcome) : Post :=
  { r with current := none, phase := .none, preempt := false, deadline := 0, lookup := none,
           lastTest := if (r.current.any fun it : Item => it.source = ItemSource.test) then some o else r.lastTest }

/-- An item halted or returned before its end, that may go back to its queue (R145, R150). -/
def Part.takesBack (p : Part) (it : Item) : Prop :=
  (∀ id, it.source = .call id → ∃ c ∈ p.calls, c.id = id) ∧ (it.source = .stream → p.fire.streamOn = true)

/-- The Play order of post `k` for an item, as placed now. -/
def Part.playOrder (p : Part) (k : Nat) (it : Item) (o : Order) : PendingOrder :=
  { record := .post k, target := (p.postEntry k).station, order := o, cls := if it.source = .stream then .safety else .signal,
    placed := p.cycle }

/-- The part that a grant of an order leaves to the order's owner: a Play order's post has its order phase In Channel (R144). -/
def Part.granting (p : Part) (o : PendingOrder) : Part :=
  match o.record with
  | .post k => if o.order = .haltPlay then p else p.modPost k fun r => { r with phase := .inChannel }
  | .lamp | .slide _ | .shutter _ => p

/-- What the owner does when an order failed, result Refused, Rejected, NoReply or Unroutable (R93, R124, R130, R145): a lamp order's state
is none, a slide or shutter under that move Jammed, a post without its item, which is Discarded, and Lost where no answer came; each with
its fault. A lamp fault names station 0 where no drive station is named (log 43), a stopped travel timer is 0 (log 70), and a slide or
shutter order is under the record's move when it is of its kind (log 71). -/
def Part.orderFails (t p : Part) (ch : Channel) (res : OrderResult) : Prop :=
  let code : FaultCode := match res with
    | .rejected => .orderRejected
    | .refused => .orderRefused
    | .noReply => .noReply
    | .unroutable | .done | .halted | .haltedAccepted => .unroutable
  let told := fun (code : FaultCode) (st : Station) => t.faults = p.faults.enter { code, cycle := p.cycle, station := st }
  ch.deaf = false →
  match ch.record with
  | .lamp => t.chain.lampResult = some res ∧ t.chain.lamp = none ∧ told .lampOrderFailed (p.driveStation.getD 0)
  | .slide k => k ∈ planeNumbers → ∀ r ∈ p.slide k, ∀ m ∈ slideMoveOf ch.order,
    (r.move = some m →
      (t.slide k).map (fun y => (y.state, y.move, y.timer)) = some (.jammed, none, 0) ∧
      ((p.plane k).enabled = true → told code (p.plane k).station) ∧ ((p.plane k).enabled = false → t.faults = p.faults)) ∧
    (r.move ≠ some m → (t.slide k).map (fun y => y.state) = some r.state ∧ t.faults = p.faults)
  | .shutter k => ∀ r ∈ p.shutterRec k, ∀ m ∈ shutterMoveOf ch.order,
    (r.move = some m →
      (t.shutterRec k).map (fun y => (y.state, y.move, y.timer)) = some (.jammed, none, 0) ∧ told code (p.shutter k).station) ∧
    (r.move ≠ some m → t.shutterRec k = some r ∧ t.faults = p.faults)
  | .post k => ∀ r ∈ p.post k,
    let lost := res = .noReply ∨ res = .unroutable
    let acts := ch.order ≠ .haltPlay ∧ r.phase = .inChannel
    (acts → told code (p.postEntry k).station) ∧
    (acts → lost ∨ r.queue = [] →
      t.post k = some (if lost then { r.without .discarded with state := .lost } else r.without .discarded) ∧
      t.calls = p.calls.map (fun c =>
        if (r.current.any fun it : Item => it.source = ItemSource.call c.id) then { c with lost := bump8 c.lost } else c)) ∧
    (¬acts → t.post k = some r ∧ t.faults = p.faults)

/-- What the owner does when an order was halted (R68, R130, R135, R145, R149): a shutter's halted move is cleared, one halted although
accepted is Lowering with its Raise to follow; a halted Play goes back to its queue, and the head is dispatched; one accepted plays
and is halted on the line. That a returned item takes a new enqueue cycle is log 37, and that pre-empt wanted is clear in Halting log 64. -/
def Part.orderHalted (t p : Part) (ch : Channel) (res : OrderResult) : Prop :=
  ch.deaf = false →
  t.faults = p.faults ∧
  match ch.record with
  | .lamp => t.chain.lampResult = some res ∧ t.chain.lamp = p.chain.lamp
  | .slide k => (t.slide k).map SlideRecord.withoutClose = (p.slide k).map SlideRecord.withoutClose
  | .shutter k => ∀ r ∈ p.shutterRec k, ∀ m ∈ shutterMoveOf ch.order,
    let seq := p.seq (p.shutter k).compartment
    let there := r.state = .lowered ∨ m = .toPause ∧ r.state = .paused
    (res = .halted → t.shutterRec k = some (if r.move = some m then { r with move := none } else r)) ∧
    (res = .haltedAccepted → m ≠ .raise → seq.state ≠ .sequencing → seq.dropped = false →
      (t.shutterRec k).map (fun y => (y.state, y.timer)) =
        some (if there ∨ r.state = .lowering then (r.state, r.timer) else (.lowering, (p.shutter k).travel * 50)) ∧
      (∀ o ∈ p.pendingOrder (.shutter k), t.pendingOrder (.shutter k) = some o) ∧
      (p.pendingOrder (.shutter k) = none →
        (t.shutterRec k).map (fun y => y.move) = some (some .raise) ∧
        t.pendingOrder (.shutter k) = some { record := .shutter k, target := (p.shutter k).station, order := .shutterRaise,
                                             cls := .safety, placed := p.cycle }))
  | .post k => ∀ r ∈ p.post k, ∀ it ∈ r.current, ∀ l ∈ r.lookup, ch.order ≠ .haltPlay → r.phase = .inChannel →
    let back := { it with enqueued := p.cycle }
    let idle := { r with current := none, phase := .none, preempt := false, deadline := 0, lookup := none }
    (res = .haltedAccepted →
      t.post k = some { r with state := .halting, phase := .confirmed, deadline := l.deadline it.repeats, preempt := false } ∧
      t.pendingOrder (.post k) = some
        { record := .post k, target := (p.postEntry k).station, order := .haltPlay,
          cls := if (r.queue.head?.any fun y : Item => y.source = ItemSource.stream) then .safety else .signal, placed := p.cycle }) ∧
    (res = .halted → r.queue = [] → ¬p.takesBack it → t.post k = some idle) ∧
    (res = .halted → r.queue = [] → r.state = .idle → p.takesBack it → ∀ x ∈ p.lookUp back,
      t.post k = some { idle with current := some back, phase := .pending, lookup := some x.1 } ∧
      t.pendingOrder (.post k) = some (p.playOrder k it x.2)) ∧
    (res = .halted → r.state = .idle → p.takesBack it → ∀ y ∈ r.queue, r.queue = [y] → y.source ≠ it.source → it.rank < y.rank →
      ∀ x ∈ p.lookUp y,
        t.post k = some { idle with queue := [back], current := some y, phase := .pending, lookup := some x.1 } ∧
        t.pendingOrder (.post k) = some (p.playOrder k y x.2))

/-- What the owner does when an order is done (R93, R124, R130, R145): a lamp order stands, a slide or shutter under that move moves, with
its travel timer, unless it is there already, and a post plays its item against the deadline, or is halted when an item pre-empts it. -/
def Part.orderDone (t p : Part) (ch : Channel) : Prop :=
  ch.deaf = false →
  t.faults = p.faults ∧
  match ch.record with
  | .lamp => t.chain.lampResult = some .done ∧ t.chain.lamp = p.chain.lamp
  | .slide k => k ∈ planeNumbers → ∀ r ∈ p.slide k, ∀ m ∈ slideMoveOf ch.order, r.move = some m →
    let under : SlideState := match m with
      | .close => .closing
      | .openMove => .opening
    (t.slide k).map (fun y => (y.state, y.timer)) =
      some (under, if r.state = under then r.timer else (p.plane k).travel * 50)
  | .shutter k => ∀ r ∈ p.shutterRec k, ∀ m ∈ shutterMoveOf ch.order, r.move = some m →
    let under : ShutterState := match m with
      | .raise => .raising
      | .toPause | .full => .lowering
    let there := match m with
      | .toPause => r.state = .paused ∨ r.state = .lowered
      | .full => r.state = .lowered
      | .raise => r.state = .opened
    (there → (t.shutterRec k).map (fun y => (y.state, y.timer, y.move)) = some (r.state, r.timer, none)) ∧
    (¬there → (t.shutterRec k).map (fun y => (y.state, y.timer)) =
      some (under, if r.state = under then r.timer else (p.shutter k).travel * 50))
  | .post k => ∀ r ∈ p.post k, ∀ it ∈ r.current, ∀ l ∈ r.lookup, ch.order ≠ .haltPlay → r.phase = .inChannel →
    (r.preempt = false →
      t.post k = some { r with state := .playing, phase := .confirmed, deadline := l.deadline it.repeats }) ∧
    (r.preempt = true → t.orderHalted p ch .haltedAccepted)

/-- The arrival of an item that outranks a post's current one (R149): a pending order goes and the item is dispatched in place of the
current one, which waits in front of its priority, with a new enqueue cycle (log 37); an order in a channel is halted; a play is halted
on the line. -/
def Part.preempted (t p : Part) (k : Nat) (r : Post) (it : Item) : Prop :=
  let queue := r.queue.takeWhile (fun x => it.rank ≤ x.rank) ++ it :: r.queue.dropWhile fun x => it.rank ≤ x.rank
  r.queue.length < 7 → (∀ x ∈ r.queue, x.source ≠ it.source) → ∀ cur ∈ r.current, cur.rank < it.rank →
  (r.state = .playing →
    t.post k = some { r with state := .halting, queue } ∧
    t.pendingOrder (.post k) = some (p.playOrder k it .haltPlay)) ∧
  (r.state = .halting → t.post k = some { r with queue }) ∧
  (r.state = .idle → r.phase = .inChannel → ∀ c ∈ channelNumbers, r.preempt = false → (p.channel c).state = .awaiting →
    (p.channel c).record = .post k → (p.channel c).deaf = false →
    (∀ d ∈ channelNumbers, d < c → ¬((p.channel d).state ≠ .idle ∧ (p.channel d).record = .post k ∧ (p.channel d).deaf = false)) →
    t.post k = some { r with preempt := true, queue } ∧ t.channel c = { p.channel c with state := .halting }) ∧
  (r.state = .idle → r.phase = .pending → p.takesBack cur → (∀ x ∈ r.queue, x.rank ≤ cur.rank ∧ x.source ≠ cur.source) →
    ∀ x ∈ p.lookUp it,
      t.post k = some { r with current := some it, phase := .pending, preempt := false, deadline := 0, lookup := some x.1,
                               queue := { cur with enqueued := p.cycle } :: r.queue } ∧
      t.pendingOrder (.post k) = some (p.playOrder k it x.2))

/-! ## The owners' tests of a commit (R182) -/

/-- The state tests that refuse a commit with Refused-State (R74, R115, R127, R137). -/
def Part.outOfState (p : Part) (id : Nat) : Prop :=
  let moving := p.chain.mode = .running ∨ p.chain.mode = .lastCall ∨ p.chain.mode = .stopping ∨ 0 < p.chain.record.v
  (id = 4 ∨ id = 5) ∧ (moving ∨ p.day.mode = .evacuation) ∨
  id = 6 ∧ (p.day.mode = .evacuation ∨ ∃ s ∈ p.sequences, s.state = .sequencing) ∨
  id = 8 ∧ p.day.mode = .evacuation

/-- A number outside a range. -/
def outside (lo n hi : Nat) : Prop := n < lo ∨ hi < n

/-- A station that no table may name: a number above 127, or the own number. -/
def Part.badStation (p : Part) (st : Nat) : Prop := st ≠ 0 ∧ (127 < st ∨ st = p.own)

/-- The range tests that refuse a commit with Refused-Range (R73, R114, R126, R137, R151, R154, R166, R171, R182), and the values without
a code (R190, log 28). -/
def Part.outOfRange (p : Part) (id : Nat) (t : Table) : Prop :=
  match id with
  | 2 => ∃ e ∈ t, byteAt e 0 ≠ 0 ∧
    (6 < byteAt e 0 ∨ 127 < byteAt e 1 ∨ 128 < byteAt e 2 ∨ 16 < byteAt e 4 ∨ byteAt e 0 = 5 ∧ 127 < byteAt e 6)
  | 3 => ∃ n ∈ [1, 2, 3, 4], ∃ st ∈ rolesEntry t n, 127 < st
  | 4 =>
    let c := chainParamsOf t
    outside 8000 c.loop 131071 ∨ outside 4 c.cabins 64 ∨ outside 500 c.body 3980 ∨ outside 0 c.margin 200 ∨
    outside 150 c.runLimit 500 ∨ outside 20 c.creep 150 ∨ outside 100 c.decel 2000 ∨ outside 0 c.stopTol 100 ∨
    outside 20 c.jumpTol 500 ∨ outside 5 c.clearing 120
  | 5 => ∃ k ∈ planeNumbers, let e := planeEntryOf t k
    e.station ≠ 0 ∧ (p.badStation e.station ∨ 131070 < e.coordinate ∨ 9 < e.floor ∨ outside 1 e.travel 60)
  | 6 => outside 10 (escapeHoldOf t) 600 ∨ ∃ k ∈ shutterNumbers, let e := shutterEntryOf t k
    e.station ≠ 0 ∧ (p.badStation e.station ∨ outside 1 e.compartment 8 ∨ outside 1 e.group 6 ∨ outside 1 e.travel 60)
  | 8 => ∃ k ∈ postNumbers, let e := postEntryOf t k
    e.station ≠ 0 ∧ (p.badStation e.station ∨ 9 < e.floor)
  | 9 => ∃ n ∈ bellCodes, let e := bellEntryOf t n
    e.loaded ≠ 0 ∧ (e.loaded ≠ 1 ∨ 7 < e.divider ∨ outside 1 e.repeats 15 ∨ 48 < e.escCode ∨
      e.escCode ≠ 0 ∧ outside 1 e.escPost 16)
  | 10 => ∃ e ∈ t, 60 < byteAt e 0
  | 11 => ∃ e ∈ t, byteAt e 0 ≠ 0 ∧
    (5 < byteAt e 0 ∨ 86399 < tripleAt e 1 ∨ 64 < byteAt e 4 ∨ byteAt e 4 ≠ 0 ∧ outside 1 (byteAt e 7) 15 ∨
      byteAt e 0 ≠ 1 ∧ bitOf (byteAt e 8) 0 = true)
  | 12 =>
    let e := entryOf tDay t 0
    outside 10 (byteAt e 0) 120 ∨ outside 1 (byteAt e 1) 64 ∨ outside 1 (byteAt e 2) 48 ∨ outside 1 (byteAt e 3) 15
  | 13 =>
    let e := entryOf tLine t 0
    outside 0 (byteAt e 0) 3 ∨ outside 5 (byteAt e 1) 250 ∨ outside 2 (byteAt e 2) 250 ∨ outside 10 (byteAt e 3) 250 ∨
    outside 1 (byteAt e 4) 7 ∨ outside 1 (byteAt e 5) 15 ∨ outside 0 (byteAt e 6) 1
  | 14 => (∃ i ∈ placeNumbers, p.badStation (byteAt (entryOf tSubs t i) 0)) ∨
    ∃ i ∈ [0, 1, 2, 3], p.badStation (byteAt (entryOf tSubs t 0) i)
  | _ => False

/-- The form tests that refuse a commit with Refused-Check (R16, R44, R111, R115, R127, R137, R154, R166, R182). -/
def Part.formFails (p : Part) (id : Nat) (t : Table) : Prop :=
  let shutterStation := fun st => ∃ j ∈ shutterNumbers, (p.shutter j).station = st
  let planeStation := fun st => ∃ j ∈ planeNumbers, (p.plane j).station = st
  match id with
  | 2 => ∃ e ∈ t, let arg := byteAt e 6
    (byteAt e 0 = 3 ∨ byteAt e 0 = 4) ∧ outside 1 arg 6 ∨ byteAt e 0 = 5 ∧ (arg = 0 ∨ arg = p.own) ∨
      byteAt e 0 = 6 ∧ outside 1 arg 3
  | 3 => (∃ n ∈ [1, 2, 3, 4], p.own ∈ rolesEntry t n) ∨
    ∃ n ∈ [1, 2, 3, 4], ∃ m ∈ [1, 2, 3, 4], n < m ∧ ∃ st ∈ rolesEntry t n, st ∈ rolesEntry t m
  | 4 =>
    let c := chainParamsOf t
    c.cabins = 0 ∨ c.loop % c.cabins ≠ 0 ∨ outside 1500 c.pitch 4000 ∨ c.width < 20 ∨
    ∃ k ∈ planeNumbers, (p.plane k).station ≠ 0 ∧ c.loop ≤ (p.plane k).coordinate
  | 5 => ∃ k ∈ planeNumbers, let e := planeEntryOf t k
    e.station = 0 ∧ e.flagEnabled = true ∨
    e.station ≠ 0 ∧ (shutterStation e.station ∨
      match p.chainParams with
      | some cp => cp.loop ≤ e.coordinate
      | none => 131070 < e.coordinate)
  | 6 =>
    (∃ k ∈ shutterNumbers, (shutterEntryOf t k).station ≠ 0 ∧ (planeStation (shutterEntryOf t k).station ∨
      ∃ j ∈ shutterNumbers, j ≠ k ∧ (shutterEntryOf t j).station = (shutterEntryOf t k).station)) ∨
    ∃ k ∈ shutterNumbers, ∃ j ∈ shutterNumbers, let a := shutterEntryOf t k; let b := shutterEntryOf t j
      a.station ≠ 0 ∧ b.station ≠ 0 ∧ a.compartment = b.compartment ∧ a.night = true ∧ b.night = false ∧ b.group ≤ a.group
  | 8 => ∃ k ∈ postNumbers, let e := postEntryOf t k
    e.station = 0 ∧ e.flagEnabled = true ∨
    e.station ≠ 0 ∧ (planeStation e.station ∨ shutterStation e.station ∨
      ∃ j ∈ postNumbers, j ≠ k ∧ (postEntryOf t j).station = e.station)
  | 9 => ∃ n ∈ bellCodes, let e := bellEntryOf t n
    e.loaded ≠ 0 ∧ e.escCode ≠ 0 ∧ (bellEntryOf t e.escCode).loaded ≠ 1
  | 11 => ∃ i ∈ List.range (t.length - 1), let a := t.getD i []; let b := t.getD (i + 1) []
    byteAt b 0 ≠ 0 ∧ (byteAt a 0 = 0 ∨ tripleAt b 1 ≤ tripleAt a 1)
  | 14 =>
    let place := fun i => byteAt (entryOf tSubs t i) 0
    let reset := fun i => byteAt (entryOf tSubs t 0) i
    (∃ i ∈ placeNumbers, ∃ j ∈ placeNumbers, i < j ∧ place i ≠ 0 ∧ place i = place j) ∨
    ∃ i ∈ [0, 1, 2, 3], ∃ j ∈ [0, 1, 2, 3], i < j ∧ reset i ≠ 0 ∧ reset i = reset j
  | _ => False

/-! ## Commands and the frames that spell them -/

/-- The Manage order that a command of the table carries, with the frame it came by. A Load whose bytes are not whole entries of an
existing table carries none (R180, step 1). -/
def manageOrder : Instr → Option (Ctx × ManageOrder)
  | .claim c => some (c, .claim)
  | .release c => some (c, .release)
  | .force c => some (c, .force)
  | .read c object first => some (c, .read object first)
  | .load c table first data =>
    if isTable table && data.length % entrySize table ≠ 0 then none else some (c, .load table first data)
  | .commit c table => some (c, .commit table)
  | .beginService c => some (c, .beginService)
  | .setClock c second => some (c, .setClock second)
  | .portEnable c port => some (c, .portEnable port)
  | .portDisable c port => some (c, .portDisable port)
  | .gateSet c cls => some (c, .gateSet cls)
  | .gateClear c cls => some (c, .gateClear cls)
  | .start c => some (c, .start)
  | .stop c => some (c, .stop)
  | .clearTrip c => some (c, .clearTrip)
  | .openSlides c => some (c, .openSlides)
  | .restore c => some (c, .restore)
  | .clearFault c => some (c, .clearFault)
  | .clearCounters c => some (c, .clearCounters)
  | .testPlay c post kind code repeats => some (c, .testPlay post kind code repeats)
  | .reset c => some (c, .reset)
  | .subscribe c conditions falling => some (c, .subscribe conditions falling)
  | .unsubscribe c => some (c, .unsubscribe)
  | .unknownOrder c code _ => some (c, .unknown code)
  | .powerUp .. | .cycleStart .. | .alarmAsserted | .alarmReleased | .endOfPeriodicMark | .burstFrameSent .. | .frameReceived ..
  | .outputGrant .. | .agentPortSlotTaken | .frameAged .. | .holdAgeExpired .. | .gateEffective .. | .trainingTimeout ..
  | .portSilent .. | .overcurrent | .cooldownExpired | .resetFrame .. | .chainPosition .. | .driveState .. | .landingEdgeTrip ..
  | .chainRecordStale | .clearingTimerExpired | .planCompleted | .poll .. | .channelGrant | .retryRebuild .. | .confirm ..
  | .replyWindowExpired .. | .slidePosition .. | .slideTravelTimeout .. | .slideStationLost .. | .shutterPosition ..
  | .shutterTravelTimeout .. | .shutterStationLost .. | .escapeHoldExpired .. | .dropNow .. | .postReady .. | .postDone ..
  | .postHalted .. | .presence .. | .playDeadlineExpired .. | .postStationLost .. | .call .. | .roundDue .. | .acknowledge ..
  | .clockAdvance | .fireZoneAlarm .. | .fireZoneClear .. | .streamTimerExpired | .firePanelLost .. => none

/-- The command that a frame for the own number stands for, by its kind and its payload (12.2 to 12.5); none where they spell none. -/
def commandOf (q : PortId) (f : Frame) : Option Instr :=
  let b := byteAt f.payload
  let n := f.payload.length
  let w : From := { port := q, source := f.source }
  let c : Ctx := { port := q, source := f.source, cls := f.cls, replyWanted := f.replyWanted }
  match f.kind, b 0 with
  | 1, 1 =>
    if n = 8 then
      (driveStateOf (b 6)).map fun d => .chainPosition w (tripleAt f.payload 1) (pairAt f.payload 4) d (f.payload.getD 7 0)
    else none
  | 1, 2 => if n = 2 then (driveStateOf (b 1)).map fun d => .driveState w d else none
  | 1, 3 => if n = 1 then some (.landingEdgeTrip w) else none
  | 1, 4 => if n = 2 then (slidePosOf (b 1)).map fun x => .slidePosition w x else none
  | 1, 5 => if n = 2 then (shutterPosOf (b 1)).map fun x => .shutterPosition w x else none
  | 1, 6 => if n = 1 then some (.postReady w) else none
  | 1, 7 => if n = 2 then some (.postDone w (b 1)) else none
  | 1, 8 => if n = 2 then some (.postHalted w (b 1)) else none
  | 1, 9 => if n = 2 then some (.fireZoneAlarm w (b 1)) else none
  | 1, 10 => if n = 2 then some (.fireZoneClear w (b 1)) else none
  | 1, 11 => if n = 2 then some (.dropNow w (f.payload.getD 1 0)) else none
  | 1, 12 => if n = 1 then some (.presence w) else none
  | 2, _ => if n = 2 then some (.poll w (pairAt f.payload 0)) else none
  | 5, _ => if n = 1 then some (.confirm w f.toggle (b 0)) else none
  | 6, _ =>
    if n = 6 then some (.call w f.cls f.toggle (b 0) (BitVec.ofNat 16 (pairAt f.payload 1)) (b 3) (pairAt f.payload 4)) else none
  | 7, _ => if n = 2 then some (.acknowledge w (b 0) (b 1)) else none
  | 9, 1 => if n = 1 then some (.claim c) else none
  | 9, 2 => if n = 1 then some (.release c) else none
  | 9, 3 => if n = 1 then some (.force c) else none
  | 9, 4 => if n = 3 then some (.read c (b 1) (b 2)) else none
  | 9, 5 => if 3 ≤ n then some (.load c (b 1) (b 2) (f.payload.drop 3)) else none
  | 9, 6 => if n = 2 then some (.commit c (b 1)) else none
  | 9, 7 => if n = 1 then some (.beginService c) else none
  | 9, 8 => if n = 4 then some (.setClock c (tripleAt f.payload 1)) else none
  | 9, 9 => if n = 2 then some (.portEnable c (b 1)) else none
  | 9, 10 => if n = 2 then some (.portDisable c (b 1)) else none
  | 9, 11 => if n = 2 then some (.gateSet c (b 1)) else none
  | 9, 12 => if n = 2 then some (.gateClear c (b 1)) else none
  | 9, 13 => if n = 1 then some (.start c) else none
  | 9, 14 => if n = 1 then some (.stop c) else none
  | 9, 15 => if n = 1 then some (.clearTrip c) else none
  | 9, 16 => if n = 1 then some (.openSlides c) else none
  | 9, 17 => if n = 1 then some (.restore c) else none
  | 9, 18 => if n = 1 then some (.clearFault c) else none
  | 9, 19 => if n = 1 then some (.clearCounters c) else none
  | 9, 20 => if n = 5 then some (.testPlay c (b 1) (b 2) (b 3) (b 4)) else none
  | 9, 21 => if n = 1 then some (.reset c) else none
  | 9, 22 => if n = 4 then some (.subscribe c (pairAt f.payload 1) (b 3)) else none
  | 9, 23 => if n = 1 then some (.unsubscribe c) else none
  | 9, code => if 1 ≤ n then some (.unknownOrder c code (f.payload.drop 1)) else none
  | 11, _ => if n = 0 then some (.resetFrame w) else none
  | _, _ => none

/-! ## The laws that every step keeps -/

/-- The staged permit by R94's table: the drive mode's stage, in Stopping the plan's stage and target or the stage asked for, and stage
None without a target wherever the law forbids more. -/
def Part.permitByMode (p : Part) : Prop :=
  let x := p.chain.staged
  let lawful := p.wellOpen ∧ (p.chain.record.freshness = .fresh ∨ p.chain.record.freshness = .extrapolated)
  x.mode = p.chain.mode ∧
  (¬lawful → x.stage = .none ∧ x.target = none) ∧
  (lawful →
    match p.chain.mode with
    | .halted | .parked | .tripped => x.stage = .none ∧ x.target = none
    | .running | .lastCall => x.stage = .run ∧ x.target = none
    | .stopping =>
      match p.chain.plan with
      | some pl => x.stage = pl.stage ∧ x.target = some pl.target
      | none => x.stage = p.chain.stopStage ∧ x.target = none)

/-- The permit law (R94), and the staged permit as R94 computes it (R95). -/
def Part.PermitLaw (p : Part) : Prop :=
  (p.chain.staged.stage ≠ .none ∨ p.chain.staged.target ≠ none →
    p.wellOpen ∧ (p.chain.record.freshness = .fresh ∨ p.chain.record.freshness = .extrapolated)) ∧
  p.chain.staged = p.permitNow ∧ p.permitByMode

/-- The close law (R122): a pending Slide Close stands only while the chain is Parked and Fresh, its plane is in the closable set, and
it and every plane of its station are clear at x. -/
def Part.CloseLaw (p : Part) : Prop :=
  ∀ o ∈ p.orders, ∀ k ∈ planeNumbers, o.record = .slide k → o.order = .slideClose →
    p.chain.mode = .parked ∧ p.chain.record.freshness = .fresh ∧ k ∈ p.chain.parkSet ∧ k ∉ p.chain.unclosable ∧
    p.planeClear k p.chain.record.x = true ∧
    ∀ j ∈ planeNumbers, (p.plane j).inUse = true → (p.plane j).station = (p.plane k).station →
      p.planeClear j p.chain.record.x = true

/-- A hold condition, in the words of R45. -/
def Part.conditionHolds (p : Part) : HoldCondition → Prop
  | .chainAtRest =>
    (p.chain.mode = .parked ∨ p.chain.mode = .halted) ∧ p.chain.record.freshness = .fresh ∧ p.chain.record.v = 0
  | .notEvacuation => p.day.mode ≠ .evacuation
  | .tradingHours => p.day.mode = .trading ∨ p.day.mode = .warning

/-- Held frames stand as R45 evaluates them, and a gate is effective only while closed (R54). -/
def Part.RelayLaw (p : Part) : Prop :=
  (∀ e ∈ p.hold,
    (e.eligible = true ↔ p.conditionHolds e.condition ∧ ∃ ps, p.resolve (some e.arrival) e.route = .target ps) ∧
    (e.eligible = true → p.resolve (some e.arrival) e.route = .target e.target)) ∧
  (p.gates.signalEffective = true → p.gates.signalSet = true) ∧
  (p.gates.serviceEffective = true → p.gates.serviceSet = true ∨ p.day.mode = .evacuation)

/-- The fire law (R174, R169, R177): out of Unloaded, an Asserted ALARM or an active zone means Evacuation; and the evacuation stream
runs exactly in Evacuation (R176). -/
def Part.FireLaw (p : Part) : Prop :=
  (p.day.mode ≠ .unloaded → p.day.alarm = true ∨ p.fire.zones ≠ [] → p.day.mode = .evacuation) ∧
  (p.fire.streamOn = true ↔ p.day.mode = .evacuation)

/-- The channel law: no two channels in flight have one target (R59), an Idle channel has no retry due (R66), and a record has at most
one pending order (R57). -/
def Part.ChannelLaw (p : Part) : Prop :=
  (∀ a ∈ channelNumbers, ∀ b ∈ channelNumbers, (p.channel a).state ≠ .idle → (p.channel b).state ≠ .idle →
    (p.channel a).target = (p.channel b).target → a = b) ∧
  (∀ a ∈ channelNumbers, (p.channel a).state = .idle → (p.channel a).retryDue = false) ∧
  (p.orders.map fun o => o.record).Nodup

/-- The capacities: slots (R27, R28), output queues with their order by class (R49), bursts (R4), Hold List (R45), Call Table (R155). -/
def Part.CapacityLaw (p : Part) : Prop :=
  (∀ q : PortId, (p.port q).slots.length ≤ 4 ∧ (p.port q).queue.length ≤ 8 ∧ (p.port q).burstLeft ≤ 10 ∧
    ((p.port q).queue.map fun f => clsCode f.frame.cls).Pairwise (· ≤ ·)) ∧
  p.agent.slots.length ≤ 8 ∧ p.hold.length ≤ 4 ∧ p.calls.length ≤ 16

/-- The post queues: at most eight items, in order of priority, never two of one source (R141). -/
def Part.OrderLaw (p : Part) : Prop :=
  ∀ k ∈ postNumbers, ∀ r, p.post k = some r →
    r.queue.length ≤ 8 ∧ (r.queue.map Item.rank).Pairwise (· ≥ ·) ∧ (r.queue.map fun it => it.source).Nodup

/-- A post plays nothing that a waiting item outranks unless it is Halting (R149), with what carries that from step to step: where each
order phase stands, that exactly the posts in use have a record (R137), and that a pending Play order is that of a current item whose
phase is Pending (R144). -/
def Part.PlayLaw (p : Part) : Prop :=
  p.posts.length = 16 ∧ (∀ k ∈ postNumbers, (p.post k).isSome = (p.postEntry k).inUse) ∧
  (∀ k ∈ postNumbers, ∀ r, p.post k = some r →
    (r.state = .playing → ∃ it, r.current = some it ∧ ∀ x ∈ r.queue, x.rank ≤ it.rank) ∧
    (r.state = .idle → r.preempt = false → ∀ it, r.current = some it → ∀ x ∈ r.queue, x.rank ≤ it.rank) ∧
    (r.phase = .none ↔ r.current = none) ∧
    (r.phase = .pending ∨ r.phase = .inChannel → r.state = .idle) ∧
    (r.phase = .confirmed ↔ r.state = .playing ∨ r.state = .halting)) ∧
  ∀ o ∈ p.orders, ∀ k, o.record = .post k → o.order ≠ .haltPlay →
    k ∈ postNumbers ∧ ∃ r, p.post k = some r ∧ r.phase = .pending

/-- Every queued Staff item belongs to a call that is present in the Call Table (R161). -/
def Part.StaffLaw (p : Part) : Prop :=
  ∀ k ∈ postNumbers, ∀ r, p.post k = some r → ∀ it ∈ r.queue, ∀ id, it.source = .call id → ∃ c ∈ p.calls, c.id = id

end Sys2Proof.Machine
end

