-- ==== Sys2Proof/Certificates/Slice0/Obligations.lean ====
section
/-! DEFINITION. The statements for the provers, listed in OBLIGATIONS.json. -/

open Sys2Proof Sys2Proof.Machine

/-! ## Steps, power-up and the laws that every step keeps -/

/-- A step takes the command at the front of the queue and is its meaning on the state with the queue's rest; on an empty queue the part
idles (the block form of the task; log 2). Every command completes, and none of them touches the queue of commands. -/
def Obligations.StepRunsTheFrontCommand : Prop :=
  (∀ (c : Instr) (rest : List Instr) (p : Part),
    step { part := p, pending := c :: rest } = exec c { part := p, pending := rest }) ∧
  (∀ p : Part, step { part := p, pending := [] } = .next { part := p, pending := [] }) ∧
  ∀ (i : Instr) (s : State), Gives i s fun _ => True

/-- After power-up with any strap value (R15, R188): cycle 0 begun with Marks that carry the training flag (R5, R18), every block at its
power-up state (R55, R72, R75, R80, R113, R136, R152, R164, R178) and the tables as their rules give them (R2, R16, R19, R36, R39, R48, R52, R62,
R63, R73, R97, R114, R126, R128, R137, R151, R153, R166, R171, R184, R187): no entry in use and no role named, every route Flood, the
escape hold 120 s, the evacuation period 30 s, the defaults of T, J and the clearing time, which stand uncommitted. The model's choices
are what the lowering sequences hold as cause and group (log 45), the channels as order (log 39), the clock as counts, the stream as next
kind and the chain as stage of a first plan (log 32), the stopped stream as timer (log 53), and zeros in the place of values that the tables
do not have (log 15). -/
def Obligations.PowerUpStartsCycleZero : Prop :=
  ∀ (strap : Nat) (alarm : Bool) (s : State), strap ≤ 7 → Gives (.powerUp strap alarm) s fun t =>
    t.own = 120 + strap ∧ t.cycle = 0 ∧ t.periodic = true ∧ t.markCode = 1 ∧
    (∀ q : PortId, t.port q = { state := .training, training := 1, silence := 1 }) ∧
    t.agent = {} ∧ t.cooldown = 0 ∧ t.hold = [] ∧ t.gates = {} ∧
    t.sent = [PortId.n, PortId.s, PortId.w].map (fun q =>
      (q, builtFrame (120 + strap) 0 .safety kindMark false false (markPayload 0 3 8 .unloaded .halted true))) ∧
    t.orders = [] ∧ t.channels = List.replicate 12 {} ∧ t.toggles = List.replicate 128 false ∧ t.stale = 0 ∧
    t.chain = {} ∧ t.park = {} ∧
    t.slides = List.replicate 16 none ∧ t.shutters = List.replicate 24 none ∧ t.sequences = List.replicate 8 {} ∧
    t.withheld = [] ∧ t.posts = List.replicate 16 none ∧ t.postCounts = List.replicate 16 {} ∧ t.calls = [] ∧ t.lastCall = 0 ∧ t.unmatched = 0 ∧
    t.day = { alarmRun := if alarm then 1 else 0 } ∧ t.fire = {} ∧
    t.claim = none ∧ t.copies = List.replicate 14 none ∧ t.committed = List.replicate 14 false ∧
    t.notices = {} ∧ t.faults = {} ∧
    (∀ st, st ≤ 127 → t.route st = .flood) ∧
    t.silenceLimit = 25 ∧ t.ageLimit = 25 ∧ t.holdLimit = 100 ∧ t.triesSetting = 3 ∧ t.replyWindow = 4 ∧ t.heldMode = false ∧
    (∀ e ∈ t.table tPass, ∀ f m, ¬ruleApplies e f m) ∧ (∀ st, t.role st = none) ∧ t.driveStation = none ∧ t.panelStations = [] ∧
    t.brigade = none ∧ t.offices = [] ∧ t.chainParams = none ∧
    (chainParamsOf (t.table tChain)).stopTol = 25 ∧ (chainParamsOf (t.table tChain)).jumpTol = 100 ∧
    (chainParamsOf (t.table tChain)).clearing = 30 ∧
    (∀ k ∈ planeNumbers, (t.plane k).inUse = false ∧ (t.plane k).flagEnabled = false) ∧
    (∀ k ∈ shutterNumbers, (t.shutter k).inUse = false) ∧ escapeHoldOf (t.table tShutters) = 120 ∧
    (∀ z, 1 ≤ z → z ≤ 16 → t.zoneCompartments z = []) ∧
    (∀ k ∈ postNumbers, (t.postEntry k).inUse = false ∧ (t.postEntry k).flagEnabled = false) ∧
    (∀ code, t.bell code = none) ∧ (∀ cue, t.phrase cue = none) ∧ t.steps = [] ∧
    t.evacPeriod = 30 ∧ t.evacCue = 0 ∧ t.evacCode = 0 ∧ t.evacRepeats = 0 ∧
    (∀ i ∈ placeNumbers, (t.place i).station = 0) ∧ t.resetList = []

/-- The state after reset keeps every law. -/
def Obligations.ResetKeepsEveryLaw : Prop :=
  State.reset.part.PermitLaw ∧ State.reset.part.CloseLaw ∧ State.reset.part.RelayLaw ∧ State.reset.part.FireLaw ∧
  State.reset.part.ChannelLaw ∧ State.reset.part.CapacityLaw ∧ State.reset.part.OrderLaw ∧ State.reset.part.PlayLaw ∧
  State.reset.part.StaffLaw

/-- The permit law is kept by every step (R94, R95). -/
def Obligations.EveryStepKeepsThePermitLaw : Prop :=
  ∀ s t : State, s.part.PermitLaw → step s = .next t → t.part.PermitLaw

/-- The close law is kept by every step (R122). -/
def Obligations.EveryStepKeepsTheCloseLaw : Prop :=
  ∀ s t : State, s.part.CloseLaw → step s = .next t → t.part.CloseLaw

/-- After every step held frames are eligible and targeted as their conditions, kept routes and the port states have them, and a gate is
effective only while closed (R45, R54). -/
def Obligations.EveryStepKeepsTheRelayLaw : Prop :=
  ∀ s t : State, s.part.RelayLaw → step s = .next t → t.part.RelayLaw

/-- The fire law is kept by every step (R174, R176). -/
def Obligations.EveryStepKeepsTheFireLaw : Prop :=
  ∀ s t : State, s.part.FireLaw → step s = .next t → t.part.FireLaw

/-- The channel law is kept by every step (R57, R59). -/
def Obligations.EveryStepKeepsTheChannelLaw : Prop :=
  ∀ s t : State, s.part.ChannelLaw → step s = .next t → t.part.ChannelLaw

/-- No store of the part is ever filled beyond its size, and the output queues keep their order (R4, R27, R28, R45, R49, R155). -/
def Obligations.EveryStepKeepsTheCapacityLaw : Prop :=
  ∀ s t : State, s.part.CapacityLaw → step s = .next t → t.part.CapacityLaw

/-- The post queues keep their size, their order and one item a source (R141). -/
def Obligations.EveryStepKeepsTheOrderLaw : Prop :=
  ∀ s t : State, s.part.OrderLaw → step s = .next t → t.part.OrderLaw

/-- No post but a Halting one plays an item that a waiting item outranks (R149). -/
def Obligations.EveryStepKeepsThePlayLaw : Prop :=
  ∀ s t : State, s.part.OrderLaw → s.part.PlayLaw → step s = .next t → t.part.PlayLaw

/-- Every queued Staff item keeps belonging to a call of the table (R161). -/
def Obligations.EveryStepKeepsTheStaffLaw : Prop :=
  ∀ s t : State, s.part.StaffLaw → step s = .next t → t.part.StaffLaw

/-- A table in force, or the record of a commit, changes at no command but power-up and an order of the station in the claim cell: a
Commit, Subscribe or Unsubscribe, as a command or in a received frame (R179). -/
def Obligations.TablesChangeByTheClaimHolderOnly : Prop :=
  ∀ (i : Instr) (s t : State), exec i s = .next t →
    t.part.tables ≠ s.part.tables ∨ t.part.committed ≠ s.part.committed →
    (∃ strap alarm, i = .powerUp strap alarm) ∨
    (∃ c id, i = .commit c id ∧ s.part.claim = some c.source) ∨
    (∃ c x y, i = .subscribe c x y ∧ s.part.claim = some c.source) ∨
    (∃ c, i = .unsubscribe c ∧ s.part.claim = some c.source) ∨
    ∃ q bs, i = .frameReceived q bs ∧ (parseFrame bs).kind = kindManage ∧ s.part.claim = some (parseFrame bs).source

/-! ## The Management Agent -/

/-- Claim, Release and Force move the claim cell by the order, its source's role and the holder, or are refused with a reply and change
nothing (R179, R180). A change of the cell raises the claim condition with the old and new holders, and one that a Force takes from
another station is told to that station as well, whether it subscribes or not (R184), where nothing else was left to bring up to date
(log 21). That the Notices of the claim condition are built before the claim forced Notice is the model's choice (log 55), and so is that a
Notice carries its sequence as it was before the increase (log 68), and that a reply is offered behind them (log 65). -/
def Obligations.ClaimCellFollowsTheOrders : Prop :=
  ∀ (c : Ctx) (s : State),
    let holder := s.part.claim
    let mayClaim := s.part.isCommitted tRoles = false ∨ s.part.role c.source = some .office ∨ s.part.role c.source = some .brigade
    let changed := fun (old new : Station) => s.part.letters .claim false [byteOf old, byteOf new]
    let place := fun (st : Station) (i : Nat) =>
      i ∈ placeNumbers ∧ (s.part.place i).station = st ∧ ∀ j ∈ placeNumbers, j < i → (s.part.place j).station ≠ st
    let forced := fun (h : Station) (seq : Nat) => s.part.letter h seq .claimForced false [byteOf c.source]
    (Gives (.claim c) s fun t =>
      (holder = none → mayClaim → t.steady = ({ s.part with claim := some c.source } : Part).steady ∧
        t.orderAnswered s.part c 1 .done ∧ (s.part.quiet → t.noticed s.part (changed 0 c.source))) ∧
      (holder = none → ¬mayClaim → t.steady = s.part.steady ∧ t.replied s.part c 1 .refusedClaim 0 []) ∧
      (holder = some c.source → t.steady = s.part.steady ∧ t.replied s.part c 1 .done 0 []) ∧
      ∀ h, holder = some h → h ≠ c.source → t.steady = s.part.steady ∧ t.replied s.part c 1 .refusedClaim h []) ∧
    (Gives (.release c) s fun t =>
      (holder = some c.source → t.steady = ({ s.part with claim := none } : Part).steady ∧
        t.orderAnswered s.part c 2 .done ∧ (s.part.quiet → t.noticed s.part (changed c.source 0))) ∧
      (holder ≠ some c.source →
        t.steady = s.part.steady ∧ t.replied s.part c 2 .refusedClaim (holder.getD 0) [])) ∧
    (Gives (.force c) s fun t =>
      (s.part.role c.source = some .brigade → t.steady = ({ s.part with claim := some c.source } : Part).steady ∧
        t.orderAnswered s.part c 3 .done ∧
        (s.part.quiet →
          (holder = none → t.noticed s.part (changed 0 c.source)) ∧ (holder = some c.source → t.noticed s.part []) ∧
          ∀ h, holder = some h → h ≠ c.source →
            ((∀ i ∈ placeNumbers, (s.part.place i).station ≠ h) →
              t.noticed s.part (changed h c.source ++ [(0, forced h 0)])) ∧
            (s.part.notices.sequences.length = 4 → ∀ i, place h i → t.noticed s.part (changed h c.source ++ [(i, forced h
              (s.part.notices.sequences.getD (i - 1) 0 + ((changed h c.source).filter fun x => x.1 = i).length))])))) ∧
      (s.part.role c.source ≠ some .brigade →
        t.steady = s.part.steady ∧ t.replied s.part c 3 .refusedClaim (holder.getD 0) []))

/-- Each of the nineteen orders that need the claim cell is refused with Refused-Claim, naming the holder, to a station that does not
hold it; an order code that names no order is answered Unknown-Order, whoever sends it; either changes nothing (R180). -/
def Obligations.OrdersNeedTheClaimCell : Prop :=
  (∀ (i : Instr) (c : Ctx) (o : ManageOrder) (s : State), manageOrder i = some (c, o) → o.fromAny = false →
    s.part.claim ≠ some c.source →
    Gives i s fun t => t.steady = s.part.steady ∧ t.replied s.part c o.code .refusedClaim (s.part.claim.getD 0) []) ∧
  ∀ (c : Ctx) (code : Nat) (args : List Byte) (s : State),
    Gives (.unknownOrder c code args) s fun t => t.refuses s.part c code .unknownOrder

/-- A Read changes nothing and is always answered with the object's data (R183). A table in force and a pending copy read as the bytes
loaded, as many whole entries as fit in 21 bytes from the first named (R190); the claim cell reads as its holder; a first entry below or
beyond a table's, a copy that does not exist, and an object code outside 12.5's list are Refused-Range. That the claim cell is entry 0,
and that a first entry below a table's first is Refused-Range, are the model's choices (log 14); what the entries and the bytes of the other
records are, which the statement takes from the model, rests on its choices too (logs 13 to 15, 50, 60 to 62, 76, 77). -/
def Obligations.ReadAnswersAndChangesNothing : Prop :=
  ∀ (c : Ctx) (object first : Nat) (s : State),
    let entries := fun (id : Nat) (table : Table) => ((table.drop (first - entryLow id)).take (21 / entrySize id)).flatten
    let within := fun (id : Nat) (table : Table) => entryLow id ≤ first ∧ first < entryLow id + table.length
    let reads := fun (id : Nat) (table : Table) (t : Part) =>
      (within id table → (∀ e ∈ table, e.length = entrySize id) → t.replied s.part c 4 .done 0 (entries id table)) ∧
      (¬within id table → t.replied s.part c 4 .refusedRange 0 [])
    Gives (.read c object first) s fun t =>
      t.steady = s.part.steady ∧
      (isTable object = true → reads object (s.part.table object) t) ∧
      (33 ≤ object → object ≤ 46 → ∀ copy ∈ s.part.copies.getD (object - 33) none, reads (object - 32) copy t) ∧
      (33 ≤ object → object ≤ 46 → s.part.copies.getD (object - 33) none = none → t.replied s.part c 4 .refusedRange 0 []) ∧
      t.replied s.part c 4 (s.part.readObject object first).1 0 (s.part.readObject object first).2 ∧
      (object = 76 → first = 0 → t.replied s.part c 4 .done 0 [byteOf (s.part.claim.getD 0)]) ∧
      ((object = 0 ∨ 15 ≤ object ∧ object ≤ 32 ∨ 47 ≤ object ∧ object ≤ 63 ∨ 89 ≤ object) →
        t.replied s.part c 4 .refusedRange 0 [])

/-- A Load from the claim holder writes its run over the pending copy, made from the table in force if there is none, and nothing else;
an id or a run outside the table is Refused-Range (R181); a frame that is not whole entries is bad form (R180). The model's choices (log
28) are that a run that begins below the table's first entry is Refused-Range, that a run of no entries is Done, and that entry 0 of table
6 is five bytes as its other entries are. -/
def Obligations.LoadWritesThePendingCopy : Prop :=
  ∀ (c : Ctx) (id first : Nat) (data : List Byte) (s : State), s.part.claim = some c.source →
    let size := entrySize id
    let base := (s.part.copies.getD (id - 1) none).getD (s.part.table id)
    let inRange := isTable id = true ∧ entryLow id ≤ first ∧ first + data.length / size ≤ entryHigh id + 1
    (isTable id = true → data.length % size ≠ 0 →
      Gives (.load c id first data) s fun t => t.steady = (s.part.count c.port .badForm).steady) ∧
    (data.length % size = 0 ∨ isTable id = false → ¬inRange →
      Gives (.load c id first data) s fun t => t.refuses s.part c 5 .refusedRange) ∧
    (data.length % size = 0 → inRange → base.length = (tableIn powerUpTables id).length → s.part.copies.length = 14 →
      Gives (.load c id first data) s fun t => ∃ new : Table,
        t.steady = ({ s.part with copies := s.part.copies.set (id - 1) (some new) } : Part).steady ∧
        t.replied s.part c 5 .done 0 [] ∧ new.length = base.length ∧
        ∀ n, n < base.length → new.getD n [] =
          if first ≤ n + entryLow id ∧ n + entryLow id < first + data.length / size then
            (data.drop ((n + entryLow id - first) * size)).take size
          else base.getD n [])

/-- A Commit that passes its owner's tests puts the pending copy in force, removes it and records the commit (R182); for the tables whose
commit has no further effect, that is all it changes. The Roles commit keeps the silence counts of the fire panel stations still named
(R173); the Plane commit renews the slides whose station changed, clears the withheld marks, computes the arc starts and the feasibility
record afresh, and tests the chain (R81, R84, R88, R101, R112, R116; in what order, log 37; that a park set
which grows in Parked is followed by R88 and R110, log 69; that a stopped travel timer is 0, log 70; that a removed Open takes its move ordered with
it is the model's inference, log 24); the Floor Shutter commit renews the shutters and ends the Complete sequences (R127; what an ended
sequence keeps is log 45); the Post commit renews, disables and enables the posts (R138; the counters it keeps are log 46, the
post that is moved and disabled at once log 47, the stopped play deadline log 53, pre-empt wanted log 64, a halt of an order whose result
is discarded already log 41); the Closing Schedule commit sets the pointer afresh (R167). The Chain Parameters commit is
ChainCommitForgetsThePosition, which says what the feasibility record holds. -/
def Obligations.CommitPutsTheCopyInForce : Prop :=
  ∀ (c : Ctx) (id : Nat) (new : Table) (s : State), s.part.claim = some c.source → isTable id = true →
    s.part.copies.getD (id - 1) none = some new → s.part.commitTest id new = none →
    let p := s.part
    let put : Part := { p with
      tables := p.tables.set (id - 1) new
      copies := p.copies.set (id - 1) none
      committed := p.committed.set (id - 1) true }
    let drops := fun (r : RecordId) (t : Part) => ∀ o ∈ t.orders, o.record ≠ r
    let deafens := fun (renewed : RecordId → Prop) (t : Part) => ∀ ch ∈ channelNumbers,
      ((p.channel ch).state ≠ .idle ∧ renewed (p.channel ch).record → t.channel ch = { p.channel ch with deaf := true }) ∧
      (¬((p.channel ch).state ≠ .idle ∧ renewed (p.channel ch).record) → t.channel ch = p.channel ch)
    Gives (.commit c id) s fun t =>
      t.tables = put.tables ∧ t.copies = put.copies ∧ t.committed = put.committed ∧
      (id ∈ [1, 2, 7, 9, 10, 12, 13, 14] → t.steady = put.steady) ∧
      (id = 3 → p.tables.length = 14 → t.steady = ({ put with
        fire := { p.fire with panels := p.fire.panels.filter fun x => x.1 ∈ rolesEntry new 2 } } : Part).steady) ∧
      (id = 5 → p.tables.length = 14 → p.slides.length = 16 → p.channels.length = 12 →
        let moved := fun k => (planeEntryOf new k).station ≠ (p.plane k).station
        let off := fun k => (p.plane k).enabled = true ∧ (planeEntryOf new k).enabled = false
        let plain := fun r : SlideRecord => { r.withoutClose with moveAt := 0 }
        t.chainFollowsPlanes p ∧ (t.wantedSet = p.wantedSet → t.withheld = []) ∧
        (∀ k ∈ planeNumbers,
          ((planeEntryOf new k).station = 0 → (p.plane k).station ≠ 0 → t.slide k = none ∧ drops (.slide k) t) ∧
          ((planeEntryOf new k).station ≠ 0 → moved k → (t.slide k).map plain = some {} ∧ drops (.slide k) t) ∧
          (¬moved k → off k → drops (.slide k) t ∧ (t.slide k).map plain =
            (p.slide k).map (if (p.pendingOrder (.slide k)).isSome then fun r => plain { r with move := none } else plain)) ∧
          (¬moved k → ¬off k → (t.slide k).map plain = (p.slide k).map plain)) ∧
        deafens (fun r => ∃ k ∈ planeNumbers, moved k ∧ r = .slide k) t ∧
        (∀ cp ∈ p.chainParams, ∀ k ∈ planeNumbers, recordAt t.park.arcStarts k =
          if (planeEntryOf new k).station ≠ 0 then
            some (((planeEntryOf new k).coordinate - cp.pitch + cp.margin : Int) % cp.pitch).toNat
          else none) ∧
        t.park.feasibility = put.refreshPark.park.feasibility ∧
        ({ t with channels := p.channels } : Part).offSlides = put.offSlides) ∧
      (id = 6 → p.tables.length = 14 → p.shutters.length = 24 → p.channels.length = 12 →
        let moved := fun k => (shutterEntryOf new k).station ≠ (p.shutter k).station
        (∀ k ∈ shutterNumbers,
          (moved k → t.shutterRec k = (if (shutterEntryOf new k).station ≠ 0 then some {} else none) ∧ drops (.shutter k) t) ∧
          (¬moved k → t.shutterRec k = p.shutterRec k ∧ t.pendingOrder (.shutter k) = p.pendingOrder (.shutter k))) ∧
        t.sequences = p.sequences.map (fun x => if x.state = .complete then {} else x) ∧
        deafens (fun r => ∃ k ∈ shutterNumbers, moved k ∧ r = .shutter k) t ∧ t.faults = p.faults ∧
        ({ t with channels := p.channels } : Part).offShutters = put.offShutters) ∧
      (id = 8 → p.tables.length = 14 → p.posts.length = 16 → p.channels.length = 12 →
        t.postCounts = p.postCounts ∧ t.faults = p.faults ∧ t.offPosts = put.offPosts ∧
        ∀ k ∈ postNumbers,
          let a := p.postEntry k
          let b := postEntryOf new k
          let quiet := fun held : Bool => ∀ ch ∈ channelNumbers, (p.channel ch).state ≠ .idle → (p.channel ch).record = .post k →
            (t.channel ch).deaf = true ∧ (held = true → (p.channel ch).order ≠ .haltPlay →
              (t.channel ch).state = .halting ∨ (t.channel ch).state = .idle ∧ (t.channel ch).result = some .halted)
          (b.station = 0 → a.station ≠ 0 → t.post k = none ∧ drops (.post k) t ∧ quiet false) ∧
          (b.station = 0 → a.station = 0 → t.post k = p.post k) ∧
          (b.station ≠ 0 → a.station = 0 → t.post k = some { state := if b.flagEnabled then .unknown else .disabled }) ∧
          (b.station ≠ 0 → a.station ≠ 0 → a.station ≠ b.station → drops (.post k) t ∧ quiet false ∧
            t.post k = (p.post k).map fun r =>
              { r.without .discarded with
                state := if b.flagEnabled then .unknown else .disabled, silence := 0, heard := false, lastTest := none }) ∧
          (b.station ≠ 0 → a.station = b.station → a.flagEnabled = b.flagEnabled → t.post k = p.post k) ∧
          (b.station ≠ 0 → a.station = b.station → a.flagEnabled = true → b.flagEnabled = false → drops (.post k) t ∧ quiet true ∧
            t.post k = (p.post k).map fun r =>
              { r.without .discarded with
                state := .disabled, queue := []
                lastTest := if ((r.current.toList ++ r.queue).any fun it : Item => it.source = ItemSource.test) then some .discarded
                  else r.lastTest }) ∧
          (b.station ≠ 0 → a.station = b.station → a.flagEnabled = false → b.flagEnabled = true → ∀ r ∈ p.post k,
            let onHand := r.heard = true ∧ r.silence < 50
            (¬onHand → t.post k = some { r with state := .unknown, silence := 0 }) ∧
            (onHand → r.current = none → r.queue = [] → t.post k = some { r with state := .idle }) ∧
            (onHand → r.current = none → ∀ it rest, r.queue = it :: rest → ∀ x ∈ p.lookUp it,
              t.post k = some { r with
                state := .idle, queue := rest, current := some it, phase := .pending, lookup := some x.1 } ∧
              t.pendingOrder (.post k) = some (put.playOrder k it x.2)))) ∧
      (id = 11 → t.pointsAfresh ∧ ({ t with day := { t.day with pointer := p.day.pointer } } : Part).steady = put.steady)

/-- A refused Commit changes nothing: Refused-Range for an id outside 1 to 14, Refused-State without a pending copy, else the result of
the first of the owner's tests that fails (R182): its state tests (R74, R115, R127, R137), its range tests, its form tests (R16, R44,
R111, R154, R166). A copy that passes them all is not refused. A value without a code is out of range (log 28). -/
def Obligations.RefusedCommitChangesNothing : Prop :=
  ∀ (c : Ctx) (id : Nat) (s : State), s.part.claim = some c.source →
    (isTable id = false → Gives (.commit c id) s fun t => t.refuses s.part c 6 .refusedRange) ∧
    (isTable id = true → s.part.copies.getD (id - 1) none = none →
      Gives (.commit c id) s fun t => t.refuses s.part c 6 .refusedState) ∧
    ∀ new, isTable id = true → s.part.copies.getD (id - 1) none = some new →
      (∀ r, s.part.commitTest id new = some r → Gives (.commit c id) s fun t => t.refuses s.part c 6 r) ∧
      (s.part.outOfState id → Gives (.commit c id) s fun t => t.refuses s.part c 6 .refusedState) ∧
      (¬s.part.outOfState id → s.part.outOfRange id new → Gives (.commit c id) s fun t => t.refuses s.part c 6 .refusedRange) ∧
      (¬s.part.outOfState id → ¬s.part.outOfRange id new → s.part.formFails id new →
        Gives (.commit c id) s fun t => t.refuses s.part c 6 .refusedCheck) ∧
      (¬s.part.outOfState id → ¬s.part.outOfRange id new → ¬s.part.formFails id new → s.part.commitTest id new = none) ∧
      (id = 4 ∨ id = 5 →
        s.part.chain.mode = .running ∨ s.part.chain.mode = .lastCall ∨ s.part.chain.mode = .stopping ∨
          0 < s.part.chain.record.v ∨ s.part.day.mode = .evacuation →
        Gives (.commit c id) s fun t => t.refuses s.part c 6 .refusedState)

/-- A commit of the Chain Parameters makes the record Unknown with misses 0, keeps drive mode and park set (R74), gives every plane in use
its arc start (c − P + M) mod P (R101), and computes the feasibility record (R112): Not known before a Plane Table is committed, Yes
without an arc where no plane is enabled, Yes with the arc and target phase of R103 where the span of the enabled planes is at most W,
else No with the run that R105 chooses. Nothing else changes. -/
def Obligations.ChainCommitForgetsThePosition : Prop :=
  ∀ (c : Ctx) (new : Table) (s : State), s.part.claim = some c.source → s.part.tables.length = 14 → s.part.committed.length = 14 →
    s.part.copies.getD 3 none = some new → s.part.commitTest 4 new = none →
    let cp := chainParamsOf new
    Gives (.commit c 4) s fun t =>
      t.chain.record = { s.part.chain.record with freshness := .unknown, misses := 0 } ∧
      t.chain.mode = s.part.chain.mode ∧ t.chain.parkSet = s.part.chain.parkSet ∧
      (let pitch : Nat := cp.loop / cp.cabins
       let start := fun k => (((s.part.plane k).coordinate - pitch + cp.margin : Int) % pitch).toNat
       let ahead := fun j k => ((start k : Int) - start j) % pitch
       let set := s.part.enabledPlanes
       let reach := fun q => set.filter fun k => ahead q k ≤ cp.width
       let f := t.park.feasibility
       t.park = { s.part.park with
         arcStarts := planeNumbers.map fun k => if (s.part.plane k).inUse then some (start k) else none
         feasibility := f } ∧
       (s.part.isCommitted tPlanes = false → f = .notKnown) ∧
       (s.part.isCommitted tPlanes = true → set = [] → f = .yesEmpty) ∧
       (s.part.isCommitted tPlanes = true → set ≠ [] → (∃ q ∈ set, reach q = set) →
         ∃ j ∈ set, ∃ k ∈ set, (∀ i ∈ set, ahead j i ≤ ahead j k) ∧ (∀ i ∈ set, ∃ l ∈ set, ahead j k ≤ ahead i l) ∧
           (∀ i ∈ set, (∀ l ∈ set, ahead i l ≤ ahead j k) → start j ≤ start i) ∧
           f = .yes (start k) ((start j + cp.width) % pitch).toNat ((start k + (cp.width - ahead j k) / 2) % pitch).toNat) ∧
       (s.part.isCommitted tPlanes = true → set ≠ [] → (∀ q ∈ set, reach q ≠ set) →
         ∃ q ∈ set, f = .no (reach q) ∧ ∀ j ∈ set, (reach j).length ≤ (reach q).length ∧
           ((reach j).length = (reach q).length → (reach q).headD 0 ≤ (reach j).headD 0 ∧
             ((reach q).headD 0 = (reach j).headD 0 → start q ≤ start j)))) ∧
      ({ t with tables := s.part.tables, copies := s.part.copies, committed := s.part.committed, park := s.part.park } : Part).steady =
        ({ s.part with chain := { s.part.chain with record := { s.part.chain.record with freshness := .unknown, misses := 0 } } } :
          Part).steady

/-- Begin Service (R169): refused until the five tables are committed; from Unloaded into the computed mode, or into Evacuation when a zone
is active or ALARM is Asserted, the chain following the mode (R81 to R88); in any other mode Done without effect. The cause is the report
of the lowest active zone, or ALARM without one, and every compartment of the active zones' masks is affected and starts its sequence
(R131, R175). That the masks are those of the Zone Table in force at the order, also for a zone that became active before a commit of
that table, is the model's choice (log 58), and so is a cancelled clearing timer of 0 (log 53). -/
def Obligations.BeginServiceEntersTheDay : Prop :=
  ∀ (c : Ctx) (s : State), s.part.claim = some c.source →
    let ready := ∀ id ∈ [3, 4, 5, 8, 12], s.part.isCommitted id = true
    (s.part.day.mode ≠ .unloaded →
      Gives (.beginService c) s fun t => t.steady = s.part.steady ∧ t.replied s.part c 7 .done 0 []) ∧
    (s.part.day.mode = .unloaded → ¬ready → Gives (.beginService c) s fun t => t.refuses s.part c 7 .refusedState) ∧
    (s.part.day.mode = .unloaded → ready → s.part.fire.zones = [] → s.part.day.alarm = false →
      Gives (.beginService c) s fun t =>
        t.day = { s.part.day with mode := s.part.computedMode } ∧ s.part.modeByClock ∧ t.chainFollowsMode s.part ∧
        ({ t with day := s.part.day } : Part).offChain = s.part.offChain) ∧
    (s.part.day.mode = .unloaded → ready → s.part.fire.zones ≠ [] ∨ s.part.day.alarm = true →
      Gives (.beginService c) s fun t =>
        t.day.mode = .evacuation ∧ t.fire.streamOn = true ∧ t.fire.zones = s.part.fire.zones ∧
        t.fire.startCycle = some s.part.cycle ∧ t.fire.endCycle = none ∧
        (∀ z ∈ s.part.fire.zones, (∀ y ∈ s.part.fire.zones, z ≤ y) → t.fire.cause = some (.report z)) ∧
        (s.part.fire.zones = [] → t.fire.cause = some .alarm) ∧
        (∀ y, y ∈ t.fire.affected ↔ y ∈ s.part.fire.affected ∨ ∃ z ∈ s.part.fire.zones, y ∈ s.part.zoneCompartments z) ∧
        (s.part.sequences.length = 8 → ∀ z ∈ s.part.fire.zones, ∀ y ∈ s.part.zoneCompartments z, y ∉ s.part.fire.affected →
          (t.seq y).cause = some .evacuation ∧ (t.seq y).since = s.part.cycle ∧ (t.seq y).dropped = false ∧
          (t.seq y).timer = escapeHoldOf (s.part.table tShutters) * 50 ∧ (t.seq y).state ≠ .idle) ∧
        (∀ y, y ∈ s.part.fire.affected ∨ (∀ z ∈ s.part.fire.zones, y ∉ s.part.zoneCompartments z) → t.seq y = s.part.seq y) ∧
        t.chainFollowsMode s.part ∧ t.line = s.part.line)

/-- Set Clock (R165, R167, R168): the clock set to the second with the pointer at the first step later than it, or the first of the day;
out of Unloaded and Evacuation the mode becomes the computed mode, the chain following a change (R81 to R88); a second outside the day
is Refused-Range. That a cancelled clearing timer is 0 is the model's choice (log 53). -/
def Obligations.SetClockSetsTheDay : Prop :=
  ∀ (c : Ctx) (second : Nat) (s : State), s.part.claim = some c.source →
    let next := match s.part.steps.find? fun x => second < x.time with
      | some x => some x.number
      | none => s.part.steps.head?.map fun x => x.number
    let day := { s.part.day with clockSet := true, second, sub := 0, pointer := next }
    (86400 ≤ second → Gives (.setClock c second) s fun t => t.refuses s.part c 8 .refusedRange) ∧
    (second < 86400 → s.part.day.mode = .unloaded ∨ s.part.day.mode = .evacuation →
      Gives (.setClock c second) s fun t =>
        t.steady = ({ s.part with day } : Part).steady ∧ t.replied s.part c 8 .done 0 []) ∧
    (second < 86400 → s.part.day.mode ≠ .unloaded → s.part.day.mode ≠ .evacuation →
      Gives (.setClock c second) s fun t =>
        t.day = { day with mode := ({ s.part with day } : Part).computedMode } ∧ ({ s.part with day } : Part).modeByClock ∧
        (t.day.mode ≠ s.part.day.mode → t.chainFollowsMode s.part) ∧
        ({ t with day := s.part.day } : Part).offChain = s.part.offChain)

/-- Port Enable and Port Disable (R20, R21, R23): Off, and Faulted with the cooldown expired, go to Training; a live port other than the
one of arrival goes Off with its queue flushed; the other cases are Done or Refused-State without effect, and a number that names no
port is Refused-Range. A port that goes Off keeps its counts, and a Poll that came by it is left unanswered (R3, R21, R96). The frames of
its queue are counted as flushed, and a channel that loses its order so has it sent again or ends it (R51, R64). What the transmitted mark
and the timer of an order that ends so read is the model's choice (log 40). -/
def Obligations.PortOrdersMoveThePort : Prop :=
  ∀ (c : Ctx) (q : PortId) (s : State), s.part.claim = some c.source →
    let x := s.part.port q
    (Gives (.portEnable c (portCode q)) s fun t =>
      (x.state = .off ∨ x.state = .faulted ∧ s.part.cooldown = 0 →
        t.steady = (s.part.withPort q { x with state := .training, training := 0, silence := 0 }).steady ∧
        t.orderAnswered s.part c 9 .done ∧ (q = .w → t.spurPower = true)) ∧
      (x.state = .training ∨ x.state = .up ∨ x.state = .silent →
        t.steady = s.part.steady ∧ t.replied s.part c 9 .done 0 []) ∧
      (x.state = .faulted → s.part.cooldown ≠ 0 → t.refuses s.part c 9 .refusedState)) ∧
    (Gives (.portDisable c (portCode q)) s fun t =>
      (x.state = .faulted ∨ x.state.live = true ∧ q = c.port → t.refuses s.part c 10 .refusedState) ∧
      (x.state = .off → t.steady = s.part.steady ∧ t.replied s.part c 10 .done 0 []) ∧
      (x.state.live = true → q ≠ c.port →
        (t.port q).state = .off ∧ (t.port q).queue = [] ∧ (t.port q).sending = x.sending ∧ (t.port q).silence = x.silence ∧
        (t.port q).training = x.training ∧
        (∀ w ∈ t.chain.waitingPoll, w.port ≠ q ∧ s.part.chain.waitingPoll = some w) ∧ (∀ y ∈ t.sent, y.1 ≠ q) ∧
        (∀ a, ∀ sl ∈ (t.port a).slots, q ∉ sl.target) ∧ t.flushes s.part q false ∧ t.offPorts = s.part.offPorts ∧
        (x.queue = [] → (∀ a, ∀ sl ∈ (s.part.port a).slots, sl.target ≠ [] ∧ q ∉ sl.target) →
          (∀ sl ∈ s.part.agent.slots, sl.target ≠ [] ∧ q ∉ sl.target) →
          t.steady = (s.part.withPort q { x with state := .off, burstLeft := 0 }).steady))) ∧
    ∀ n, 3 ≤ n → (Gives (.portEnable c n) s fun t => t.refuses s.part c 9 .refusedRange) ∧
      Gives (.portDisable c n) s fun t => t.refuses s.part c 10 .refusedRange

/-- Gate Set, Gate Clear and the start of effectiveness (R53, R54): the setting of the gate named, and nothing else; a class without a
gate is Refused-Range; a closed gate is effective once no received frame of its class remains. The start and the end of effectiveness raise
the gate effective condition, the end as a falling edge (R54, R184), where nothing else was left to bring up to date and no reply is asked.
That the frame a burst is sending does not count as remaining is the model's reading (log 35), and the class code in the Notices its
choice (log 16), as that a Notice carries its sequence as it was before the increase (log 68). -/
def Obligations.GatesFollowTheirSettings : Prop :=
  ∀ (c : Ctx) (cls : Nat) (g : Gate) (s : State),
    let edge := fun (g : Gate) (was now : Bool) (t : Part) => s.part.quiet → c.replyWanted = false →
      t.noticed s.part (if was = now then [] else s.part.letters .gateEffective (!now) [byteOf (clsCode (gateClass g))])
    (s.part.claim = some c.source → ∀ b, Gives (if b then .gateSet c cls else .gateClear c cls) s fun t =>
      (cls = 2 → t.steady = ({ s.part with gates := { s.part.gates with signalSet := b } } : Part).steady ∧ t.gatesFollow s.part ∧
        edge .signal s.part.gates.signalEffective t.gates.signalEffective t) ∧
      (cls = 3 → t.steady = ({ s.part with gates := { s.part.gates with serviceSet := b } } : Part).steady ∧ t.gatesFollow s.part ∧
        edge .service s.part.gates.serviceEffective t.gates.serviceEffective t) ∧
      (cls ≠ 2 → cls ≠ 3 → t.refuses s.part c (if b then 11 else 12) .refusedRange)) ∧
    Gives (.gateEffective g) s fun t => t.steady = s.part.steady ∧ t.gatesFollow s.part

/-- Start and Clear Trip (R81, R90): from Halted into Running with the lamps ordered On when the start conditions hold; out of Tripped
when the record is Fresh, still, without drive fault and landing edge, the Halted test (R84) and the armed start then deciding at once;
else refused, or Done without effect in Running. A start raises the drive mode condition (R80, R184), told where nothing else was left to
bring up to date; that its Notices carry the sequence as it was before the increase (log 68), and find the slots before the reply does (log
65), is the model's choice. -/
def Obligations.StartAndClearTrip : Prop :=
  ∀ (c : Ctx) (s : State), s.part.claim = some c.source →
    let r := s.part.chain.record
    let start := s.part.wellOpen ∧ r.freshness = .fresh ∧ (s.part.day.mode = .trading ∨ s.part.day.mode = .warning)
    let clear := r.freshness = .fresh ∧ r.v = 0 ∧ r.echo ≠ some .fault ∧ r.edge = false
    (Gives (.start c) s fun t =>
      (s.part.chain.mode = .halted → start →
        t.chain.mode = .running ∧ t.chain.record = r ∧ t.chain.staged.stage = .run ∧ t.lampsOrdered s.part true ∧
        t.offChain = s.part.offChain ∧ t.faults = s.part.faults ∧
        (s.part.quiet → t.noticed s.part
          (s.part.letters .driveMode false [byteOf (driveModeCode .halted), byteOf (driveModeCode .running)]))) ∧
      (s.part.chain.mode = .running → t.steady = s.part.steady ∧ t.replied s.part c 13 .done 0 []) ∧
      (s.part.chain.mode ≠ .running → ¬(s.part.chain.mode = .halted ∧ start) → t.refuses s.part c 13 .refusedState)) ∧
    (Gives (.clearTrip c) s fun t =>
      (s.part.chain.mode = .tripped → clear →
        t.chain.mode ≠ .tripped ∧ t.chain.record = r ∧ t.offChain = s.part.offChain ∧
        s.part.wantedByMode ∧ t.haltedFollows s.part s.part.chain.armed ∧ (t.chain.mode = .running → t.chain.armed = false) ∧
        (s.part.wantedSet = [] → s.part.chain.armed = false → t.chain.mode = .halted ∧ t.lampsOrdered s.part false)) ∧
      (¬(s.part.chain.mode = .tripped ∧ clear) → t.refuses s.part c 15 .refusedState))

/-- Stop (R91, R84): a Running chain stops for no plane, one in LastCall for the wanted set, with a first plan asked at stage Run from the
record's x and v, and the clearing timer does not expire any more; in every mode the start-armed flag is cleared, and in the other modes
nothing else changes. -/
def Obligations.StopBringsTheChainToRest : Prop :=
  ∀ (c : Ctx) (s : State), s.part.claim = some c.source →
    let r := s.part.chain.record
    Gives (.stop c) s fun t =>
      (s.part.chain.mode = .running ∨ s.part.chain.mode = .lastCall →
        let set := if s.part.chain.mode = .running then [] else s.part.wantedSet
        t.chain.mode = .stopping ∧ t.chain.parkSet = set ∧ t.chain.unclosable = [] ∧ t.chain.plan = none ∧ t.chain.replans = 0 ∧
        t.chain.armed = false ∧ t.chain.record = r ∧
        t.park.inProgress = some { number := (s.part.park.lastRequest + 1) % 65536, parkSet := set, x := r.x, v := r.v,
                                   stage := .run, speed := r.v } ∧
        s.part.wantedByMode ∧ t.lampsOrdered s.part false ∧ t.offChain = s.part.offChain ∧ t.faults = s.part.faults ∧
        t.orderAnswered s.part c 14 .done ∧ Gives .clearingTimerExpired { part := t, pending := [] } fun u => u.steady = t.steady) ∧
      (s.part.chain.mode ≠ .running → s.part.chain.mode ≠ .lastCall →
        t.steady = ({ s.part with chain := { s.part.chain with armed := false } } : Part).steady ∧ t.replied s.part c 14 .done 0 [])

/-- Open Slides (R125): in Unloaded, Trading, Warning and LastCall, a Slide Open for every enabled plane whose record is other than Open
and whose move is not Open, the others left; Refused-State in Closed, Night and Evacuation. -/
def Obligations.OpenSlidesOrdersTheWellOpen : Prop :=
  ∀ (c : Ctx) (s : State), s.part.claim = some c.source →
    let shut := s.part.day.mode = .closed ∨ s.part.day.mode = .night ∨ s.part.day.mode = .evacuation
    Gives (.openSlides c) s fun t =>
      (shut → t.refuses s.part c 16 .refusedState) ∧
      (¬shut →
        (∀ k ∈ s.part.enabledPlanes, ∀ r, s.part.slide k = some r → r.state ≠ .opened → r.move ≠ some .openMove →
          t.pendingOrder (.slide k) = some { record := .slide k, target := (s.part.plane k).station, order := .slideOpen,
                                             cls := .safety, placed := s.part.cycle } ∧
          ∃ at_, t.slide k = some { r with move := some .openMove, moveAt := at_ }) ∧
        (∀ k, ¬(k ∈ s.part.enabledPlanes ∧ ∃ r, s.part.slide k = some r ∧ r.state ≠ .opened ∧ r.move ≠ some .openMove) →
          (t.slide k).map SlideRecord.withoutClose = (s.part.slide k).map SlideRecord.withoutClose ∧
          t.steady.orders.filter (fun o => o.record = .slide k) = s.part.steady.orders.filter fun o => o.record = .slide k) ∧
        t.steady.orders.filter (fun o => o.ofPost || o.ofShutter || o.record = .lamp) =
          s.part.steady.orders.filter (fun o => o.ofPost || o.ofShutter || o.record = .lamp) ∧
        ({ t with orders := s.part.orders, slides := s.part.slides, moves := s.part.moves } : Part).steady = s.part.steady)

/-- Restore (R177, R125, R135): refused unless in Evacuation with ALARM Released and no active zone; else the computed mode, the stream
stopped, no compartment affected, the chain following the mode (R81 to R88); into Trading or Warning the sequences end, every floor
shutter not Open is ordered to raise, and every enabled slide that needs it is ordered open; into another mode the escape holds end and
every escape shutter Paused, or ordered to its pause, is given Lower Full. The stream's items leave the posts, but for one whose Play
order is in a channel or that plays (R143). What an ended sequence holds is the model's choice (log 45), and so are the stopped play
deadline, stream timer and clearing timer (log 53), and that pre-empt wanted goes with the item (log 64). -/
def Obligations.RestoreEndsTheEvacuation : Prop :=
  ∀ (c : Ctx) (s : State), s.part.claim = some c.source →
    let may := s.part.day.mode = .evacuation ∧ s.part.day.alarm = false ∧ s.part.fire.zones = []
    Gives (.restore c) s fun t =>
      (¬may → t.refuses s.part c 17 .refusedState) ∧
      (may →
        t.day.mode = s.part.computedMode ∧ t.fire.streamOn = false ∧ t.fire.streamTimer = 0 ∧ t.fire.affected = [] ∧
        t.fire.zones = [] ∧ t.fire.cause = s.part.fire.cause ∧ t.fire.startCycle = s.part.fire.startCycle ∧
        t.fire.endCycle = some s.part.cycle ∧ t.line = s.part.line ∧ s.part.modeByClock ∧ t.chainFollowsMode s.part ∧
        (s.part.computedMode = .trading ∨ s.part.computedMode = .warning →
          t.sequences = s.part.sequences.map (fun _ => {}) ∧
          ∀ k ∈ shutterNumbers, ∀ r, s.part.shutterRec k = some r → r.state ≠ .opened →
            (t.shutterRec k).map (fun x => (x.state, x.move)) = some (r.state, some .raise) ∧
            t.pendingOrder (.shutter k) = some { record := .shutter k, target := (s.part.shutter k).station, order := .shutterRaise,
                                                 cls := .safety, placed := s.part.cycle }) ∧
        (s.part.computedMode = .trading ∨ s.part.computedMode = .warning →
          ∀ k ∈ s.part.enabledPlanes, ∀ r ∈ s.part.slide k, r.state ≠ .opened → r.move ≠ some .openMove →
            t.pendingOrder (.slide k) = some { record := .slide k, target := (s.part.plane k).station, order := .slideOpen,
                                               cls := .safety, placed := s.part.cycle }) ∧
        (s.part.computedMode ≠ .trading → s.part.computedMode ≠ .warning →
          t.sequences = s.part.sequences.map (fun x => if x.cause = some .evacuation then { x with timer := 0 } else x) ∧
          ∀ k ∈ shutterNumbers, ∀ r ∈ s.part.shutterRec k,
            let stands := (s.part.shutter k).escape = true ∧ (r.state = .paused ∨ r.move = some .toPause)
            (stands → t.shutterRec k = some { r with move := some .full } ∧
              (t.pendingOrder (.shutter k)).map (fun o => o.order) = some .shutterFull) ∧
            (¬stands → t.shutterRec k = some r ∧ t.pendingOrder (.shutter k) = s.part.pendingOrder (.shutter k))) ∧
        ∀ k ∈ postNumbers, ∀ r ∈ s.part.post k,
          let left := r.queue.filter fun x => x.source ≠ ItemSource.stream
          let drops := r.phase = .pending ∧ ∃ it ∈ r.current, it.source = ItemSource.stream
          (∀ x ∈ t.post k, ∀ it ∈ x.queue, it.source ≠ .stream) ∧
          (¬drops → t.post k = some { r with queue := left } ∧ t.pendingOrder (.post k) = s.part.pendingOrder (.post k)) ∧
          (drops → left = [] →
            t.post k = some { r with current := none, phase := .none, preempt := false, deadline := 0, lookup := none, queue := [] } ∧
            t.pendingOrder (.post k) = none))

/-- Clear Counters sets every counter to 0 and leaves the fault record, the step records, the calls and the fire zone record (R186). A counter
increased at the moment of the clearing reads 0 or 1 (R186): where nothing else was left to bring up to date (log 21) the order's own reply
is the only frame built, so that the Agent Port's counters received and unroutable are at most 1, and 0 where no reply is asked, and the
notice lost counter is 0. Where no station subscribes the notice lost counter is 0 too, and those two where besides no reply is asked; all the
other counters are 0 throughout. Beside this rule, Clear Fault empties the fault record (section 11.6). -/
def Obligations.FaultsAndCountersAreCleared : Prop :=
  ∀ (c : Ctx) (s : State), s.part.claim = some c.source →
    (Gives (.clearFault c) s fun t =>
      t.steady = ({ s.part with faults := {} } : Part).steady ∧ t.replied s.part c 18 .done 0 []) ∧
    (Gives (.clearCounters c) s fun t => t.replied s.part c 19 .done 0 [] ∧ t.orderAnswered s.part c 19 .done ∧
      t.chain.lateAnswers = 0 ∧ t.chain.pollOverruns = 0 ∧
      t.agent.counters = { received := t.agent.counters.received, unroutable := t.agent.counters.unroutable } ∧
      ((∀ i ∈ placeNumbers, (s.part.place i).station = 0) → t.notices.lost = 0 ∧ (c.replyWanted = false → t.agent.counters = {})) ∧
      (s.part.quiet → t.notices.lost = 0 ∧ t.agent.counters.received ≤ 1 ∧ t.agent.counters.unroutable ≤ 1 ∧
        (c.replyWanted = false → t.agent.counters = {})) ∧
      t.steady = ({ s.part with
      portN := { s.part.portN with counters := {} }
      portS := { s.part.portS with counters := {} }
      portW := { s.part.portW with counters := {} }
      stale := 0
      postCounts := s.part.postCounts.map fun _ => {}
      unmatched := 0 } : Part).steady)

/-- Test Play (R180, R142, R144): a value out of range is Refused-Range; Unloaded and Evacuation are Refused-State; else one Test item is
handed to the post. An Idle post with nothing to play dispatches it as a Signal order; a busy one queues it last; a disabled or unused
one refuses it and counts it (R142). -/
def Obligations.TestPlayHandsInOneItem : Prop :=
  ∀ (c : Ctx) (k kind code repeats : Nat) (s : State), s.part.claim = some c.source →
    let valid := 1 ≤ k ∧ k ≤ 16 ∧ (kind = 0 ∧ 1 ≤ code ∧ code ≤ 48 ∨ kind = 1 ∧ 1 ≤ code ∧ code ≤ 64) ∧ 1 ≤ repeats ∧ repeats ≤ 15
    let outOfService := s.part.day.mode = .unloaded ∨ s.part.day.mode = .evacuation
    let it : Item := { content := if kind = 0 then .pattern code else .phrase code, source := .test, repeats, enqueued := s.part.cycle }
    Gives (.testPlay c k kind code repeats) s fun t =>
      (¬valid → t.refuses s.part c 20 .refusedRange) ∧
      (valid → outOfService → t.refuses s.part c 20 .refusedState) ∧
      (valid → ¬outOfService → ∀ r, s.part.post k = some r →
        (r.state = .disabled → t.steady = ((s.part.modPostCount k fun n => { n with refused := bump16 n.refused }).modPost k fun r =>
          { r with lastTest := some .refused }).steady) ∧
        (r.state = .idle → r.current = none → r.queue = [] → ∀ l o, s.part.lookUp it = some (l, o) →
          t.steady = ((s.part.modPost k fun r =>
            { r with current := some it, phase := .pending, lookup := some l }).placeOrder (.post k) o .signal
              (s.part.postEntry k).station).steady) ∧
        (r.state ≠ .disabled → ¬(r.state = .idle ∧ r.current = none) → r.queue.length < 8 →
          (∀ x ∈ r.queue, x.source ≠ .test) →
          t.steady = (s.part.modPost k fun r => { r with queue := r.queue ++ [it] }).steady)) ∧
      (valid → ¬outOfService → s.part.post k = none →
        t.steady = (s.part.modPostCount k fun n => { n with refused := bump16 n.refused }).steady)

/-- A warm reset, by a Reset order of the claim holder or a Reset frame of a station of the Reset List (R187), brings every block to the
state its chapter gives (R31, R56, R72, R75, R80, R93, R136, R152, R164, R178, R185); in Evacuation only the brigade console's is
accepted. The frames of the slots and queues, and the held ones, are counted as flushed at their ports, and a waiting Poll is answered at
the end (R99). The Agent Port holds Notices of the reset alone, the gates keep their settings, the posts start anew with their counters kept,
the step records and the last step stay, the pointer is fresh, and an Asserted ALARM starts the evacuation and its stream again. A report
evaluated in this periodic part stays evaluated (R98). The model's choices are that no lamp order is placed within the reset (log 29),
that the Answer goes to the Poll's source (log 57), and what the channels, the sequences, the stream, the travel timers, the clearing timer
and the play deadlines hold while they are cleared (logs 32, 39, 45, 53, 70). -/
def Obligations.WarmResetBringsEveryBlockBack : Prop :=
  ∀ (c : Ctx) (f : From) (s : State),
    let refused := fun st : Station => s.part.day.mode = .evacuation ∧ s.part.brigade ≠ some st
    let done := fun (st : Station) (t : Part) =>
      t.claim = none ∧ t.copies = List.replicate 14 none ∧ t.tables = s.part.tables ∧ t.committed = s.part.committed ∧
      t.faults = { first := some { code := .warmReset, cycle := s.part.cycle, station := st } } ∧
      t.cycle = s.part.cycle ∧ t.toggles = s.part.toggles ∧ t.stale = s.part.stale ∧ t.lastCall = s.part.lastCall ∧
      t.unmatched = s.part.unmatched ∧ t.cooldown = s.part.cooldown ∧ t.hold = [] ∧ t.orders = [] ∧
      t.channels = List.replicate 12 {} ∧ t.calls = [] ∧
      (∀ q, (t.port q).state = (s.part.port q).state ∧ (t.port q).training = (s.part.port q).training ∧
        (t.port q).silence = (s.part.port q).silence ∧ (t.port q).slots = [] ∧ (t.port q).queue = []) ∧
      t.chain.record = {} ∧ t.chain.mode = (if s.part.chain.mode = .tripped then .tripped else .halted) ∧
      t.chain.parkSet = [] ∧ t.chain.plan = none ∧ t.chain.replans = 0 ∧ t.chain.armed = false ∧ t.park.inProgress = none ∧
      t.pollAnswered s.part false ∧
      (∀ q, let x := s.part.port q
        let n := x.slots.length + x.queue.length + (s.part.hold.filter fun e => e.arrival = q).length
        x.counters.flushed ≤ 65535 → (t.port q).counters = { x.counters with flushed := min 65535 (x.counters.flushed + n) }) ∧
      (s.part.agent.counters.flushed ≤ 65535 →
        t.agent.counters.flushed = min 65535 (s.part.agent.counters.flushed + s.part.agent.slots.length)) ∧
      t.park.arcStarts = s.part.park.arcStarts ∧
      t.slides = s.part.slides.map (Option.map fun _ => {}) ∧ t.shutters = s.part.shutters.map (Option.map fun _ => {}) ∧
      t.sequences = List.replicate 8 {} ∧ t.withheld = [] ∧
      t.fire.zones = [] ∧ t.fire.affected = [] ∧ t.day.second = s.part.day.second ∧ t.day.sub = s.part.day.sub ∧
      t.day.alarm = s.part.day.alarm ∧ t.day.alarmRun = s.part.day.alarmRun ∧
      t.day.mode = (if s.part.day.mode = .unloaded then .unloaded
        else if s.part.day.alarm then .evacuation else s.part.computedMode) ∧
      s.part.modeByClock ∧ t.pointsAfresh ∧ t.day.clockSet = s.part.day.clockSet ∧ t.day.lastStep = s.part.day.lastStep ∧
      t.day.steps = s.part.day.steps ∧
      t.agent.waiting = [] ∧ (∀ sl ∈ t.agent.slots, sl.frame.kind = 8 ∧ sl.builder = .part) ∧
      (∀ q, (t.port q).pointer = .port .n) ∧
      t.gates = { signalSet := s.part.gates.signalSet, serviceSet := s.part.gates.serviceSet
                  signalEffective := s.part.gates.signalSet
                  serviceEffective := s.part.gates.serviceSet || t.day.mode = .evacuation } ∧
      t.chain.lamp = none ∧ t.chain.lampResult = none ∧ t.chain.waitingPoll = none ∧ t.chain.clearing = 0 ∧
      (s.part.chain.evaluated = true → t.chain.evaluated = true) ∧
      t.chain.unclosable = [] ∧ t.park.lastAnswer = none ∧ t.park.feasibility = s.part.park.feasibility ∧
      t.park.lastRequest = s.part.park.lastRequest ∧
      (∀ k ∈ postNumbers, t.post k = (s.part.post k).map fun _ =>
        { state := if (s.part.postEntry k).enabled then .unknown else .disabled
          queue := if t.day.mode = .evacuation ∧ (s.part.postEntry k).enabled = true then
              [{ content := .phrase s.part.evacCue, source := .stream, repeats := s.part.evacRepeats, enqueued := s.part.cycle }]
            else [] }) ∧
      ((∀ k ∈ s.part.enabledPosts, (s.part.post k).isSome = true) →
        t.postCounts = s.part.postCounts ∧ t.fire = if t.day.mode = .evacuation then
            { cause := some .alarm, startCycle := some s.part.cycle, streamOn := true, streamTimer := s.part.evacPeriod * 50
              nextIsPattern := true }
          else {})
    (s.part.claim = some c.source →
      (¬refused c.source → Gives (.reset c) s (done c.source)) ∧
      (refused c.source → Gives (.reset c) s fun t => t.refuses s.part c 21 .refusedState)) ∧
    (f.source ∈ s.part.resetList → ¬refused f.source → Gives (.resetFrame f) s (done f.source)) ∧
    (f.source ∉ s.part.resetList ∨ refused f.source →
      Gives (.resetFrame f) s fun t => t.steady = (s.part.count f.port .badForm).steady)

/-- Subscribe and Unsubscribe change the source's place of table 14 in force (R184): its own place, or the lowest empty one; with no empty
place Subscribe is Refused-State. Each raising of a condition, a fault's among them (R185), builds a Notice for every place whose sets hold
it, with the place's notice sequence, as it was before the increase (the model's choice, log 68); one that finds no two free Agent Port slots
is lost and counted; nothing else changes. That bits which name no condition are kept as sent is the model's choice (log 73). -/
def Obligations.SubscriptionsFillThePlaces : Prop :=
  (∀ (p : Part) (cond : Condition) (fall : Bool) (details : List Byte),
    (p.raiseEdge cond fall details).noticed p (p.letters cond fall details) ∧
    ({ p.raiseEdge cond fall details with agent := p.agent, notices := p.notices } : Part) = p) ∧
  (∀ (p : Part) (code : FaultCode) (st : Station),
    (p.fault code st).noticed p (p.letters .fault false (byteOf (faultNumber code) :: (pairOf p.cycle ++ [byteOf st])))) ∧
  ∀ (c : Ctx) (conditions falling : Nat) (s : State), s.part.claim = some c.source →
    let entry := byteOf c.source :: (pairOf conditions ++ [byteOf falling])
    let put := fun (i : Nat) (e : List Byte) =>
      ({ s.part with tables := s.part.tables.set 13 ((s.part.table tSubs).set i e) } : Part).steady
    let first := fun (st : Station) (i : Nat) =>
      i ∈ placeNumbers ∧ (s.part.place i).station = st ∧ ∀ j ∈ placeNumbers, j < i → (s.part.place j).station ≠ st
    (Gives (.subscribe c conditions falling) s fun t =>
      (∀ i, first c.source i → t.steady = put i entry) ∧
      ((∀ j ∈ placeNumbers, (s.part.place j).station ≠ c.source) →
        (∀ i, first 0 i → t.steady = put i entry) ∧
        ((∀ j ∈ placeNumbers, (s.part.place j).station ≠ 0) → t.refuses s.part c 22 .refusedState))) ∧
    (Gives (.unsubscribe c) s fun t =>
      (∀ i, first c.source i → t.steady = put i [0#8, 0#8, 0#8, 0#8]) ∧
      ((∀ j ∈ placeNumbers, (s.part.place j).station ≠ c.source) →
        t.steady = s.part.steady ∧ t.replied s.part c 23 .done 0 []))

/-! ## The line cycle, the ports and the Relay -/

/-- A cycle start (R1, R2): the next cycle number, a Mark with the cycle's fields on every live port (R3, R5), training and silence counts
(R18, R19), the cooldown (R23), the sample of ALARM (R172), the store clock (R165), and what else counts in cycles: frame and hold ages
(R48, R52), reply windows (R63, R67), the clearing timer (R82), the travel timers and silence counts of slides (R120, R121) and floor
shutters (R130), escape holds (R133), play deadlines and silence counts of posts (R140, R147), rounds (R159), fire panel stations (R173)
and the stream's timer (R176). A record whose order has a result in this very cycle start is left aside, with the states, which no run
reaches, where an Idle channel has a retry due (R62, R66); where nothing runs out, and the ids of the calls differ (R155), nothing else
changes. The model's choices are that a plan in progress has completed by then (log 7), that
a record out of Lost by an order result keeps its silence count of 50 (log 51), and that a stopped play deadline (log 53) and travel timer
(log 70) are 0. -/
def Obligations.CycleStartOpensTheCycle : Prop :=
  ∀ (level : Bool) (s : State), Gives (.cycleStart level) s fun t =>
    t.cycle = (if s.part.beforeFirst then 0 else (s.part.cycle + 1) % 65536) ∧ t.beforeFirst = false ∧ t.periodic = true ∧
    t.markCode = s.part.lineByte 0 ∧ t.cooldown = s.part.cooldown - 1 ∧ t.ahead = [] ∧
    (∀ q, (t.port q).state.live = true →
      (q, builtFrame s.part.own 0 .safety kindMark false false (markPayload t.cycle ((4 - (t.port q).slots.length) - 1)
        (8 - (t.port q).queue.length) t.day.mode t.chain.mode ((t.port q).state = .training && (t.port q).training ≤ 3))) ∈ t.sent) ∧
    (∀ q, let x := s.part.port q
      (t.port q).silence = (if x.state.live then min 255 (x.silence + 1) else x.silence) ∨ 255 < x.silence) ∧
    (∀ q, let x := s.part.port q
      x.silence ≤ 255 → (t.port q).state =
        if x.state = .training ∧ 10 ≤ x.training ∨ x.state = .up ∧ s.part.silenceLimit ≤ min 255 (x.silence + 1) then .silent
        else x.state) ∧
    (∀ q, (s.part.port q).state = .training → (s.part.port q).training < 10 →
      (t.port q).training = (s.part.port q).training + 1) ∧
    t.day.alarm = (if level = s.part.day.alarm then s.part.day.alarm
      else if s.part.day.alarm then decide (s.part.day.alarmRun < 24) else decide (2 ≤ s.part.day.alarmRun)) ∧
    (s.part.day.clockSet = true → Ahead.clock ∉ s.part.ahead →
      (s.part.day.sub < 49 → t.day.sub = s.part.day.sub + 1 ∧ t.day.second = s.part.day.second) ∧
      (s.part.day.sub = 49 → t.day.sub = 0 ∧ t.day.second = (s.part.day.second + 1) % 86400)) ∧
    t.own = s.part.own ∧ t.tables = s.part.tables ∧ t.copies = s.part.copies ∧ t.committed = s.part.committed ∧
    t.claim = s.part.claim ∧ t.toggles = s.part.toggles ∧ t.stale = s.part.stale ∧ t.lastCall = s.part.lastCall ∧
    t.unmatched = s.part.unmatched ∧ t.gates.signalSet = s.part.gates.signalSet ∧ t.gates.serviceSet = s.part.gates.serviceSet ∧
    let p := s.part
    let unordered := fun r : RecordId => (∀ c ∈ channelNumbers, (p.channel c).state = .idle → (p.channel c).retryDue = false) ∧
      ∀ c ∈ channelNumbers, ¬((p.channel c).state ≠ .idle ∧ (p.channel c).record = r)
    let up := fun n : Nat => if n < 50 then n + 1 else n
    t.day.alarmRun = (if level = p.day.alarm ∨ t.day.alarm ≠ p.day.alarm then 0 else p.day.alarmRun + 1) ∧
    (∀ r ∈ p.park.inProgress, r.number = p.park.lastRequest → t.park.inProgress ≠ some r) ∧
    ((∀ a, (t.port a).state = (p.port a).state) → ∀ q, (t.port q).slots =
      ((p.port q).slots.filter fun x => x.age < p.ageLimit).map fun x => { x with age := x.age + 1 }) ∧
    (∀ q, p.periodic = false → (p.port q).sending = none → (t.port q).queue =
      ((p.port q).queue.filter fun x => x.age < p.ageLimit).map fun x => { x with age := x.age + 1 }) ∧
    (∀ x ∈ t.agent.slots, x.age ≤ 1 ∨ x.age ≤ p.ageLimit ∧ ∃ y ∈ p.agent.slots, y.frame = x.frame ∧ x.age = y.age + 1) ∧
    t.steady.hold = (p.steady.hold.filter fun e => e.age < p.holdLimit).map (fun e => { e with age := e.age + 1 }) ∧
    (∀ c ∈ channelNumbers, let ch := p.channel c
      ch.state = .awaiting → ch.retryDue = false →
        (1 < ch.timer → (t.channel c).timer = ch.timer - 1 ∧ ((t.channel c).state = .awaiting ∨ (t.channel c).state = .halting) ∧
          (t.channel c).order = ch.order ∧ (t.channel c).toggle = ch.toggle) ∧
        (ch.timer ≤ 1 → ch.triesLeft = 0 → (t.channel c).state = .idle ∧ (t.channel c).result = some .noReply)) ∧
    (p.chain.mode = .lastCall → t.chain.mode = .lastCall → 1 < p.chain.clearing ∧ t.chain.clearing = p.chain.clearing - 1) ∧
    (∀ k ∈ planeNumbers, unordered (.slide k) → ∀ r ∈ p.slide k,
      let runs := r.state = .closing ∨ r.state = .opening
      (t.slide k).map (fun y => (y.state, y.timer, y.silence)) = some
        (if r.silence = 49 then (.lost, 0, 50)
        else if runs ∧ r.timer ≤ 1 then (.jammed, 0, up r.silence)
        else (r.state, if runs then r.timer - 1 else r.timer, up r.silence))) ∧
    (∀ k ∈ shutterNumbers, unordered (.shutter k) → ∀ r ∈ p.shutterRec k,
      let runs := r.state = .lowering ∨ r.state = .raising
      (t.shutterRec k).map (fun y => (y.state, y.timer, y.silence)) = some
        (if r.silence = 49 then (.lost, 0, 50)
        else if runs ∧ r.timer ≤ 1 then (.jammed, 0, up r.silence)
        else (r.state, if runs then r.timer - 1 else r.timer, up r.silence))) ∧
    (p.day.mode = .evacuation → p.sequences.length = 8 → ∀ c ∈ compartments, (t.seq c).timer = (p.seq c).timer - 1) ∧
    (∀ k ∈ postNumbers, ∀ r ∈ p.post k, (t.post k).map (fun y => y.silence) = some (up r.silence) ∧
      (r.state = .playing ∨ r.state = .halting → r.phase ≠ .pending → unordered (.post k) → r.silence ≠ 49 →
        (1 < r.deadline → (t.post k).map (fun y => y.deadline) = some (r.deadline - 1) ∧
          (t.post k).map (fun y => y.current) = some r.current) ∧
        (r.deadline ≤ 1 → (t.post k).map (fun y => (y.state, y.deadline)) = some (.lost, 0)))) ∧
    ((p.calls.map fun c => c.id).Nodup → ∀ c ∈ p.calls, 1 < c.nextRound → Ahead.round c.id ∉ p.ahead → t.day.mode ≠ .evacuation →
      (t.callOf c.id).map (fun y => (y.nextRound, y.remaining, y.code)) = some (c.nextRound - 1, c.remaining, c.code)) ∧
    (∀ st ∈ p.panelStations, t.panelSilence st = up (p.panelSilence st)) ∧
    (p.day.mode = .evacuation → p.fire.streamOn = true → Ahead.stream ∉ p.ahead → t.fire.streamTimer =
      if p.fire.streamTimer ≤ 1 then p.evacPeriod * 50 else p.fire.streamTimer - 1) ∧
    ((p.calls.map fun c => c.id).Nodup → p.calm level → t.uncounted = p.uncounted)

/-- The end-of-periodic mark (R4, R77, R98): without a report the record is extrapolated, or Stale at the third miss; a waiting Poll is
answered late from the staged permit, and counted (R99); every live port's burst takes the head of its queue. Out of the periodic part
nothing happens. That the Answer goes to the Poll's own source, also where a Roles commit has named another drive station by then, is the
model's choice (log 57); that the frame being sent has left its queue is its reading (log 35). -/
def Obligations.PeriodicPartEnds : Prop :=
  ∀ s : State, Gives .endOfPeriodicMark s fun t =>
    (s.part.periodic = false → t.steady = s.part.steady) ∧
    (s.part.periodic = true →
      t.periodic = false ∧
      (∀ q, let x := s.part.port q
        t.port q = if x.state.live then
          match x.queue with
          | f :: rest => { x with sending := some f, queue := rest, burstLeft := 9 }
          | [] => { x with burstLeft := 0 }
        else x) ∧
      (let r := s.part.chain.record
        let missed := s.part.chain.reportTaken = false ∧ (r.freshness = .fresh ∨ r.freshness = .extrapolated)
        (¬missed → t.chain.record = r ∧ t.chain.mode = s.part.chain.mode) ∧
        (∀ cp, s.part.chainParams = some cp → missed → r.misses < 2 →
          t.chain.record = { r with x := (r.x + (r.v + 25) / 50) % cp.loop, misses := r.misses + 1, freshness := .extrapolated } ∧
          t.chain.mode = s.part.chain.mode) ∧
        (missed → 2 ≤ r.misses → t.chain.record = { r with misses := 3, freshness := .stale })) ∧
      t.pollAnswered s.part true ∧ t.chain.pollOverruns = s.part.chain.pollOverruns ∧
      (t.chain.lateAnswers = if ∃ w ∈ s.part.chain.waitingPoll, (s.part.port w.port).state.live = true
        then bump16 s.part.chain.lateAnswers else s.part.chain.lateAnswers) ∧
      ({ t with portN := {}, portS := {}, portW := {}, periodic := true } : Part).offChain =
        ({ s.part with portN := {}, portS := {}, portW := {} } : Part).offChain)

/-- The frame a burst was sending has left (R4): it is on the line, its first transmission starts the reply window of its channel (R63),
and the burst takes the next frame while frames and its ten places last. That the frame being sent has left its queue is the model's
reading (log 35), and the marks of builds and transmissions are its own (log 31). -/
def Obligations.BurstGoesOn : Prop :=
  ∀ (q : PortId) (s : State),
    let x := s.part.port q
    Gives (.burstFrameSent q) s fun t =>
      (x.sending = none → t.steady = s.part.steady) ∧
      (∀ f, x.sending = some f →
        (q, f.frame) ∈ t.sent ∧
        t.port q = (match x.queue with
          | g :: rest =>
            if x.state.live = true ∧ 0 < x.burstLeft then { x with sending := some g, queue := rest, burstLeft := x.burstLeft - 1 }
            else { x with sending := none, burstLeft := 0 }
          | [] => { x with sending := none, burstLeft := 0 }) ∧
        (∀ c b, f.builder = .channel c b →
          let ch := s.part.channel c
          ch.build = b → ch.stage = .unsent →
          (ch.state = .sending → t.channel c =
            { ch with state := .awaiting, transmitted := true, timer := s.part.replyWindow, stage := .sent }) ∧
          (ch.state = .halting → t.channel c = { ch with transmitted := true, timer := s.part.replyWindow, stage := .sent })) ∧
        ((∀ c b, f.builder ≠ .channel c b) → t.channels = s.part.channels) ∧
        ({ t.withPort q x with channels := s.part.channels } : Part).steady = s.part.steady)

/-- The arrival checks (R17, R25): a shut receiver takes nothing; bytes that fail the check word count as bad check, and bytes that pass it
but have the wrong length, a length above 24, source 0 or the own number as bad form; nothing else changes. -/
def Obligations.FaultyFramesAreCounted : Prop :=
  ∀ (q : PortId) (bs : List Byte) (s : State),
    let x := s.part.port q
    let crc := checkWord (bs.take (bs.length - 2)) = pairAt bs (bs.length - 2)
    let source := byteAt bs 1 % 128
    let formed := 6 ≤ bs.length ∧ byteAt bs 3 ≤ 24 ∧ bs.length = 6 + byteAt bs 3 ∧ source ≠ 0 ∧ source ≠ s.part.own
    Gives (.frameReceived q bs) s fun t =>
      (x.state = .off ∨ x.state = .faulted → t.steady = s.part.steady) ∧
      (x.state.live = true → 2 ≤ bs.length → ¬crc →
        t.steady = (s.part.withPort q { x with counters := x.counters.bump .badCheck }).steady) ∧
      (x.state.live = true → 2 ≤ bs.length → crc → ¬formed →
        t.steady = (s.part.withPort q { x with counters := x.counters.bump .badForm }).steady)

/-- A valid frame makes its port Up with silence count 0 (R18, R19, R25). A kind that the part alone sends is bad form (R26), and one
without the free slots of its class an overrun (R27). A transit frame meets the action of the first pass rule that applies, Pass where
none does (R39). It takes a slot with the target set of R36 or R37, or is counted as local or unroutable; gated (R53), dropped (R40) or
redirected (R42); or held, with its condition, route and age, or counted as hold full (R43, R45). A frame that a Copy or Take hands to
the agent R33 and R34 name is that agent's command as well (R41), and the tap hands the valid fire reports to the Day Unit (R35, R173).
What an agent does with a copy is said for a port that was Up. The model's choices are that the decision is made before the copies are
delivered (log 17), where the unfit content of a copy is counted (log 18), and that a held broadcast keeps Flood as its route (log 62). -/
def Obligations.TransitFramesAreAccepted : Prop :=
  ∀ (q : PortId) (bs : List Byte) (s : State),
    let p := s.part
    let x := p.port q
    let f := parseFrame bs
    let heard : Port := { x with state := .up, silence := 0, counters := x.counters.bump .received }
    let free := 4 - x.slots.length
    let room := if f.cls = .safety then 1 ≤ free else 2 ≤ free
    let action := passAction (p.table tPass) f p.day.mode
    let gated := f.cls = .signal ∧ p.gates.signalSet = true ∨ f.cls = .service ∧ (p.gates.serviceSet = true ∨ p.day.mode = .evacuation)
    let tapped := f.kind = 1 ∧ p.role f.source = some .firePanel
    let handed := ¬gated ∧ ¬tapped ∧ ∃ a, (action = .copy (some a) ∨ action = .take (some a)) ∧ p.ownerOf f = some a
    let u := (p.withPort q heard).passedOn q f action
    x.state.live = true → checkPasses bs = true → formPasses p.own bs = true →
    ((∀ e ∈ p.table tPass, ¬ruleApplies e f p.day.mode) → action = .pass) ∧
    (∀ before e after, p.table tPass = before ++ e :: after → ruleApplies e f p.day.mode →
      (∀ b ∈ before, ¬ruleApplies b f p.day.mode) → actionOf e = some action) ∧
    (Gives (.frameReceived q bs) s fun t =>
      (partOnlyKind f.kind = true → t.steady = (p.withPort q { heard with counters := heard.counters.bump .badForm }).steady) ∧
      (partOnlyKind f.kind = false → ¬room →
        t.steady = (p.withPort q { heard with counters := heard.counters.bump .overrun }).steady) ∧
      (partOnlyKind f.kind = false → room → f.dest ≠ p.own →
        (¬tapped → ¬handed → t.steady = u.steady) ∧
        (tapped → (∀ i, commandOf q f = some i → tapTakes i = false) → t.steady = u.steady) ∧
        (handed → x.state = .up → commandOf q f = none → t.steady = (u.count q .badForm).steady))) ∧
    (partOnlyKind f.kind = false → room → f.dest ≠ p.own → x.state = .up → ∀ i, commandOf q f = some i →
      handed ∨ tapped ∧ tapTakes i = true → exec (.frameReceived q bs) s = exec i { s with part := u })

/-- A grant of an output arbiter (R46, R47, R49, R50). An input offers, of the frames whose every target queue has space, the one of the
highest class, of equals the earliest accepted; the Hold input offers its eligible entries alike. The offered frame of the highest class,
of equals the first from the pointer, is granted whenever an offer names the port: it enters every queue of its target set behind the
frames of its own and higher classes and leaves its place; those arbiters' pointers move past the input. Without an offer nothing
changes. That the arbiter acts when its row is commanded is the model's choice (log 5). -/
def Obligations.ArbitersGrantByClass : Prop :=
  ∀ (q : PortId) (s : State),
    (∀ i o, s.part.offerOf i = some o ↔
      o.input = i ∧ s.part.couldOffer i o.place o.frame o.target ∧
      ∀ n f target, s.part.couldOffer i n f target →
        clsCode o.frame.frame.cls < clsCode f.frame.cls ∨ clsCode o.frame.frame.cls = clsCode f.frame.cls ∧ o.place ≤ n) ∧
    ((∃ i o, s.part.offerOf i = some o ∧ q ∈ o.target) → s.part.granted q ≠ none) ∧
    (∀ a, s.part.hasSpace a = true ↔ (s.part.port a).queue.length < 8 ∧ (s.part.port a).state.live = true) ∧
    Gives (.outputGrant q) s fun t =>
      (s.part.granted q = none → t.steady = s.part.steady) ∧
      ∀ o, s.part.granted q = some o →
        s.part.offerOf o.input = some o ∧ q ∈ o.target ∧ (∀ a ∈ o.target, s.part.hasSpace a = true) ∧
        (∀ i o', s.part.offerOf i = some o' → q ∈ o'.target → clsCode o.frame.frame.cls ≤ clsCode o'.frame.frame.cls) ∧
        (∀ i ∈ (inputsFrom (s.part.port q).pointer).takeWhile (fun i => i ≠ o.input), ∀ o', s.part.offerOf i = some o' →
          q ∈ o'.target → clsCode o.frame.frame.cls < clsCode o'.frame.frame.cls) ∧
        (∀ a, o.input = .port a → ∃ sl, (s.part.port a).slots[o.place]? = some sl ∧ o.target = sl.target ∧
          o.frame = { frame := sl.frame, builder := sl.builder, arrival := .port a, age := sl.age }) ∧
        (∀ a, let x := s.part.port a
          let queue := if a ∈ o.target then
              x.queue.takeWhile (fun f => clsCode f.frame.cls ≤ clsCode o.frame.frame.cls) ++
                o.frame :: x.queue.dropWhile fun f => clsCode f.frame.cls ≤ clsCode o.frame.frame.cls
            else x.queue
          t.port a = { x with queue, pointer := if a ∈ o.target then o.input.next else x.pointer,
                              slots := if o.input = .port a then x.slots.eraseIdx o.place else x.slots }) ∧
        (if o.input = .agent then s.part.agent.slots.eraseIdx o.place else s.part.agent.slots) <+: t.agent.slots ∧
        ({ t with portN := {}, portS := {}, portW := {} } : Part).steady = ({ s.part with
          portN := {}, portS := {}, portW := {}
          hold := if o.input = .hold then s.part.hold.eraseIdx o.place else s.part.hold } : Part).steady

/-- Waiting frames take Agent Port slots while the class rule allows (R28): of the frames it allows, the one of the highest class, of
equals the longest waiting, takes the first slot; afterwards none of those left could take one; a single waiting frame with a route and
room stands in a slot; and while every waiting frame has a route nothing else changes. That the slots are taken when the row is commanded
is the model's choice (log 5). -/
def Obligations.WaitingFramesTakeSlots : Prop :=
  ∀ s : State, Gives .agentPortSlotTaken s fun t =>
    (∀ w ∈ t.agent.waiting, (if w.frame.cls = .safety then 1 else 2) > 8 - t.agent.slots.length) ∧
    (∀ w, s.part.agent.waiting = [w] →
      (if w.frame.cls = .safety then 1 else 2) ≤ 8 - s.part.agent.slots.length →
      t.agent.waiting = [] ∧ t.carries s.part w.frame) ∧
    (let allowed := fun w : Waiting => (if w.frame.cls = .safety then 1 else 2) ≤ 8 - s.part.agent.slots.length
      ∀ n w, s.part.agent.waiting[n]? = some w → allowed w →
        (∀ m v, s.part.agent.waiting[m]? = some v → allowed v →
          clsCode w.frame.cls < clsCode v.frame.cls ∨ clsCode w.frame.cls = clsCode v.frame.cls ∧ n ≤ m) →
        ∀ ps, s.part.resolve none (s.part.routeFor w.frame.dest) = .target ps →
          s.part.agent.slots ++ [{ frame := w.frame, builder := w.builder, target := ps, age := 0, arrived := s.part.cycle }]
            <+: t.agent.slots ∧
          List.Sublist t.agent.waiting (s.part.agent.waiting.eraseIdx n)) ∧
    ((∀ w ∈ s.part.agent.waiting, ∃ ps, s.part.resolve none (s.part.routeFor w.frame.dest) = .target ps) → t.steady = s.part.steady)

/-- Frames age out (R52, R48): a frame whose age the coming cycle start would take beyond the limit leaves its slot or queue and is counted
as aged there, a held one at its port of arrival; one within its limit stays. The last unsent copy of an order makes its channel's retry
due, or ends it NoReply without a try left (R64). That the two commands act ahead of the cycle start, on frames that are due and on no
others, is the model's choice (log 4), and so is what an ended order's transmitted and timer read (log 40). -/
def Obligations.OldFramesAreDiscarded : Prop :=
  ∀ (q : PortId) (i : Nat) (s : State),
    let x := s.part.port q
    let aged := { x with counters := x.counters.bump .aged }
    let own := fun b : Builder => ∃ c n, b = .channel c n
    (Gives (.frameAged (.slot q i)) s fun t =>
      (∀ sl, x.slots[i]? = some sl → s.part.ageLimit ≤ sl.age → ¬own sl.builder →
        t.steady = (s.part.withPort q { aged with slots := x.slots.eraseIdx i }).steady) ∧
      ((∀ sl, x.slots[i]? = some sl → sl.age < s.part.ageLimit) → t.steady = s.part.steady)) ∧
    (Gives (.frameAged (.queue q i)) s fun t =>
      (∀ f, x.queue[i]? = some f → s.part.ageLimit ≤ f.age → ¬own f.builder →
        t.steady = (s.part.withPort q { aged with queue := x.queue.eraseIdx i }).steady) ∧
      (∀ f c b, x.queue[i]? = some f → s.part.ageLimit ≤ f.age → f.builder = .channel c b →
        let ch := s.part.channel c
        (s.part.withPort q { x with queue := x.queue.eraseIdx i }).copyRemains c b = false → ch.build = b → ch.stage = .unsent →
        ch.state = .sending → 1 ≤ ch.triesLeft →
        (t.port q).queue = x.queue.eraseIdx i ∧ t.channel c = { ch with retryDue := true, stage := .none } ∧
        ({ t with channels := s.part.channels } : Part).steady =
          (s.part.withPort q { aged with queue := x.queue.eraseIdx i }).steady) ∧
      (∀ f c b, x.queue[i]? = some f → s.part.ageLimit ≤ f.age → f.builder = .channel c b →
        let ch := s.part.channel c
        (s.part.withPort q { x with queue := x.queue.eraseIdx i }).copyRemains c b = false → ch.build = b → ch.stage = .unsent →
        ch.state = .sending → ch.triesLeft = 0 → t.channel c = ch.finish .noReply) ∧
      ((∀ f, x.queue[i]? = some f → f.age < s.part.ageLimit) → t.steady = s.part.steady)) ∧
    (Gives (.frameAged (.agentSlot i)) s fun t =>
      (∀ sl, s.part.agent.slots[i]? = some sl → s.part.ageLimit ≤ sl.age → ¬own sl.builder →
        s.part.agent.slots.eraseIdx i <+: t.agent.slots ∧ t.agent.counters.aged = bump16 s.part.agent.counters.aged ∧
        t.steady = s.part.steady) ∧
      (∀ sl c b, s.part.agent.slots[i]? = some sl → s.part.ageLimit ≤ sl.age → sl.builder = .channel c b →
        let ch := s.part.channel c
        ({ s.part with agent := { s.part.agent with slots := s.part.agent.slots.eraseIdx i } } : Part).copyRemains c b = false →
        ch.build = b → ch.stage = .unsent → ch.state = .sending →
        (1 ≤ ch.triesLeft → t.channel c = { ch with retryDue := true, stage := .none } ∧
          t.agent.counters.aged = bump16 s.part.agent.counters.aged ∧
          ({ t with channels := s.part.channels } : Part).steady = s.part.steady) ∧
        (ch.triesLeft = 0 → t.channel c = ch.finish .noReply)) ∧
      ((∀ sl, s.part.agent.slots[i]? = some sl → sl.age < s.part.ageLimit) → t.steady = s.part.steady)) ∧
    (Gives (.holdAgeExpired i) s fun t =>
      (∀ e, s.part.hold[i]? = some e → s.part.holdLimit ≤ e.age →
        t.steady = (({ s.part with hold := s.part.hold.eraseIdx i } : Part).withPort e.arrival
          { s.part.port e.arrival with counters := (s.part.port e.arrival).counters.bump .aged }).steady) ∧
      ((∀ e, s.part.hold[i]? = some e → e.age < s.part.holdLimit) → t.steady = s.part.steady))

/-- A port falls Silent (R18, R19, R29, R36): when its training count would become 11, or its silence count reaches the limit while Up. It
keeps its queue and its counts and leaves every target set, of the frames in slots, the Agent Port's among them (R38), and of the held
ones (R45). That the two commands act ahead of the cycle start, and on no port that is
not due, is the model's choice (log 4). -/
def Obligations.PortsFallSilent : Prop :=
  ∀ (q : PortId) (s : State),
    let x := s.part.port q
    let fallen := fun t : Part =>
      (t.port q).state = .silent ∧ (t.port q).queue = x.queue ∧ (t.port q).silence = x.silence ∧
      (t.port q).training = x.training ∧ (∀ a, ∀ sl ∈ (t.port a).slots, q ∉ sl.target) ∧
      (∀ sl ∈ t.agent.slots, q ∉ sl.target) ∧ (∀ e ∈ t.hold, q ∉ e.target) ∧ t.offPorts = s.part.offPorts ∧
      ((∀ a, ∀ sl ∈ (s.part.port a).slots, sl.target ≠ [] ∧ q ∉ sl.target) →
        (∀ sl ∈ s.part.agent.slots, sl.target ≠ [] ∧ q ∉ sl.target) →
        t.steady = (s.part.withPort q { x with state := .silent }).steady)
    (Gives (.trainingTimeout q) s fun t =>
      (x.state = .training ∧ 10 ≤ x.training → fallen t) ∧
      (¬(x.state = .training ∧ 10 ≤ x.training) → t.steady = s.part.steady)) ∧
    (Gives (.portSilent q) s fun t =>
      (x.state = .up ∧ s.part.silenceLimit ≤ bump8 x.silence → fallen t) ∧
      (¬(x.state = .up ∧ s.part.silenceLimit ≤ bump8 x.silence) → t.steady = s.part.steady))

/-- Overcurrent on the powered spur (R22): Port W Faulted, its queue emptied and its burst cut short, cooldown 250, the fault entered; on
an unpowered spur it cannot assert. A Poll that came by the port is left unanswered (R3, R96). The frame cut short and those of the queue
are counted as flushed, and a channel that loses its order so has it sent again or ends it (R51, R64). The cooldown runs out at 0 (R23), and the
port stays as it is; that COOLDOWN_EXPIRED takes the last step ahead of the cycle start, and none before, is the model's choice (log 4), and
so is what an ended order's transmitted and timer read (log 40). -/
def Obligations.OvercurrentFaultsTheSpur : Prop :=
  ∀ s : State,
    let w := s.part.portW
    (Gives .overcurrent s fun t =>
      (w.state.live = true →
        t.portW.state = .faulted ∧ t.portW.queue = [] ∧ t.portW.sending = none ∧ t.portW.training = 0 ∧ t.cooldown = 250 ∧
        t.spurPower = false ∧ t.faults.first ≠ none ∧
        (∀ y ∈ t.chain.waitingPoll, y.port ≠ .w ∧ s.part.chain.waitingPoll = some y) ∧ (∀ y ∈ t.sent, y.1 ≠ .w) ∧
        t.flushes s.part .w true ∧
        ({ t with cooldown := 0 } : Part).offPorts = ({ s.part with cooldown := 0 } : Part).offPorts ∧
        (w.queue = [] → w.sending = none → (∀ a, ∀ sl ∈ (s.part.port a).slots, sl.target ≠ [] ∧ PortId.w ∉ sl.target) →
          (∀ sl ∈ s.part.agent.slots, sl.target ≠ [] ∧ PortId.w ∉ sl.target) →
          t.steady = ({ s.part with
            portW := { w with state := .faulted, training := 0 }
            cooldown := 250
            faults := s.part.faults.enter { code := .spurOvercurrent, cycle := s.part.cycle, station := 0 } } : Part).steady)) ∧
      (w.state.live = false → t.steady = s.part.steady)) ∧
    (Gives .cooldownExpired s fun t =>
      t.steady = ({ s.part with cooldown := if s.part.cooldown = 1 then 0 else s.part.cooldown } : Part).steady)

/-- The debounced ALARM (R172, R174): the third active sample asserts it, which enters Evacuation from every mode but Unloaded; the 25th
inactive sample releases it, which changes no mode. The chain follows the mode (R81 to R88). That the two commands take the deciding
sample ahead of the cycle start, are without effect when it is not the deciding one, and give the cycle number then current as the start
cycle, is the model's choice (log 4), and so is a cancelled clearing timer of 0 (log 53). The release is a
falling edge of the alarm input condition (R184), told where nothing else was left to bring up to date; that its Notices carry no
details is the model's choice (log 16), and so is the sequence before the increase that they carry (log 68). -/
def Obligations.AlarmInputIsDebounced : Prop :=
  ∀ s : State,
    let d := s.part.day
    (Gives .alarmAsserted s fun t =>
      (d.alarm = false → d.alarmRun = 2 →
        t.day.alarm = true ∧ t.day.alarmRun = 0 ∧ t.line = s.part.line ∧
        (d.mode = .unloaded ∨ d.mode = .evacuation →
          t.steady = ({ s.part with day := { d with alarm := true, alarmRun := 0 } } : Part).steady) ∧
        (d.mode ≠ .unloaded → d.mode ≠ .evacuation →
          t.day.mode = .evacuation ∧ t.fire.cause = some .alarm ∧ t.fire.startCycle = some s.part.cycle ∧ t.fire.endCycle = none ∧
          t.fire.affected = s.part.fire.affected ∧ t.fire.zones = s.part.fire.zones ∧ t.fire.streamOn = true ∧
          t.fire.streamTimer = s.part.evacPeriod * 50 ∧ t.fire.nextIsPattern = true ∧ t.calls = [] ∧
          t.chainFollowsMode s.part)) ∧
      (¬(d.alarm = false ∧ d.alarmRun = 2) → t.steady = s.part.steady)) ∧
    (Gives .alarmReleased s fun t =>
      t.steady = ({ s.part with
        day := if d.alarm = true ∧ d.alarmRun = 24 then { d with alarm := false, alarmRun := 0 } else d } : Part).steady ∧
      (s.part.quiet →
        t.noticed s.part (if d.alarm = true ∧ d.alarmRun = 24 then s.part.letters .alarmInput true [] else [])))

/-! ## Received frames and the commands of the table -/

/-- A frame for the own number that a live port receives, with the slots of its class free, is the command its kind and payload spell by
12.2 to 12.5 (R25, R27, R33); where they spell none it is counted as bad form (R11, R13, R33). A port in Training or Silent is Up before
the frame is taken (R18, R19), with its port change condition raised (R24, R184); that the Notices carry the sequence as it was
before the increase is the model's choice (log 68), and so is that a command of the table is the taking of such a frame (log 9). -/
def Obligations.FramesForThePartAreCommands : Prop :=
  ∀ (q : PortId) (bs : List Byte) (s : State),
    let x := s.part.port q
    let f := parseFrame bs
    let counted := x.counters.bump .received
    let heard := s.part.withPort q { x with state := .up, silence := 0, counters := counted }
    checkPasses bs = true → formPasses s.part.own bs = true → f.dest = s.part.own →
    (if f.cls = .safety then x.slots.length < 4 else x.slots.length < 3) →
    (x.state = .up → ∀ i, commandOf q f = some i → exec (.frameReceived q bs) s = exec i { s with part := heard }) ∧
    (x.state = .training ∨ x.state = .silent → ∀ i, commandOf q f = some i → ∃ m : Part,
      ({ m with agent := heard.agent, notices := heard.notices } : Part) = heard ∧
      m.noticed heard (heard.letters .portChange false
        [byteOf (portCode q), byteOf (portStateCode x.state), byteOf (portStateCode .up)]) ∧
      exec (.frameReceived q bs) s = exec i { s with part := m }) ∧
    (x.state.live = true → commandOf q f = none →
      Gives (.frameReceived q bs) s fun t =>
        t.steady = (s.part.withPort q { x with state := .up, silence := 0, counters := counted.bump .badForm }).steady)

/-! ## The chain -/

/-- A Chain Position report (R34, R76, R78, R79, R81, R84, R86): from the drive station in the periodic part, with a position on the loop,
it is the record; a jump or a trip cause trips the chain and enters its faults in order. While Stopping it is tested: with an empty park
set at speed 0 the stop is complete, arrival leads to Parked, a target passed or missed at speed 0 calls for a re-plan or trips, without
a plan nothing follows. In Halted the Halted test and the armed start are made. On entry to Parked and in Parked the closable planes are
tested for closing (R122, R123; log 52). A waiting Poll is answered unless the report asked a plan (R98), to its own source (log 57), of two
reports of one periodic part by the last (log 48), and also where a trip or a stop has ended the plan it waited for (log 19). Planes are
taken in rising number (log 56). Another report is bad form. An odd flag byte reads as a free value (log 12). -/
def Obligations.ChainPositionSetsTheRecord : Prop :=
  ∀ (f : From) (x v : Nat) (ds : DriveState) (edge : Byte) (s : State),
    let p := s.part
    let r := p.chain.record
    let set := if edge = 1#8 then true else if edge = 0#8 then false else Sys2Proof.Config.oddFlag edge
    Gives (.chainPosition f x v ds edge) s fun t =>
      (p.role f.source ≠ some .drive ∨ 1023 < v ∨ p.periodic = false ∨ (∃ cp, p.chainParams = some cp ∧ cp.loop ≤ x) →
        t.steady = (p.count f.port .badForm).steady) ∧
      (p.role f.source = some .drive → v ≤ 1023 → p.periodic = true → (∀ cp ∈ p.chainParams, cp.loop ≤ x) → t.pollAnswered p false) ∧
      (p.role f.source = some .drive → v ≤ 1023 → p.periodic = true → p.chainParams = none →
        t.steady = ({ p with chain := { p.chain with
          record := { r with echo := some ds, edge := set, lastReport := p.cycle }, reportTaken := true } } : Part).steady) ∧
      ∀ cp, p.role f.source = some .drive → v ≤ 1023 → p.periodic = true → p.chainParams = some cp → x < cp.loop →
        let ahead := ((x : Int) - r.x) % cp.loop
        let jump := (r.freshness = .fresh ∨ r.freshness = .extrapolated) ∧ ((r.v + 25) / 50 : Nat) + (cp.jumpTol : Int) < ahead
        let codes := (if jump then [FaultCode.positionJump] else []) ++ (if 5 * cp.runLimit < 4 * v then [.overspeed] else []) ++
          (if ds = .fault then [.driveFault] else []) ++ (if set then [.landingEdgeTrip] else []) ++
          (if p.chain.mode = .parked ∧ 0 < v then [.movedWhileParked] else [])
        t.chain.record =
          { x, v, freshness := .fresh, misses := 0, echo := some ds, edge := set, lastReport := p.cycle } ∧
        t.offChain = p.offChain ∧ ((∀ r ∈ t.park.inProgress, r.number = p.park.lastRequest) → t.pollAnswered p false) ∧
        (p.chain.mode = .tripped → t.chain.mode = .tripped ∧ t.faults = p.faults) ∧
        (p.chain.mode ≠ .tripped → codes ≠ [] →
          t.chain.mode = .tripped ∧ t.chain.plan = none ∧ t.chain.parkSet = [] ∧ t.chain.armed = false ∧ t.lampsOrdered p false ∧
          t.faults = codes.foldl (fun fr code => fr.enter { code, cycle := p.cycle, station := f.source }) p.faults) ∧
        (p.chain.mode = .running ∨ p.chain.mode = .lastCall → codes = [] → t.chain.mode = p.chain.mode ∧ t.faults = p.faults) ∧
        (p.chain.mode = .parked → codes = [] → t.chain.mode = .parked ∧ t.chain.parkSet = p.chain.parkSet ∧
          t.chain.unclosable = p.chain.unclosable ∧ t.closesTested p p.faults) ∧
        (codes = [] → p.chain.mode = .halted ∨ p.chain.mode = .stopping ∧ p.chain.parkSet = [] ∧ v = 0 →
          p.wantedByMode ∧ t.haltedFollows p p.chain.armed ∧ (t.chain.mode = .running → t.chain.armed = false)) ∧
        (codes = [] → p.chain.mode = .stopping → p.chain.plan = none → ¬(p.chain.parkSet = [] ∧ v = 0) →
          t.chain.mode = .stopping ∧ t.chain.plan = none ∧ t.chain.replans = p.chain.replans ∧ t.chain.parkSet = p.chain.parkSet ∧
          t.park = p.park ∧ t.faults = p.faults) ∧
        ∀ pl, p.chain.mode = .stopping → codes = [] → p.chain.plan = some pl →
          let left := pl.travel - ahead
          let arrived := v = 0 ∧ -cp.stopTol ≤ left ∧ left ≤ cp.stopTol ∧
            ∀ k ∈ p.chain.parkSet, k ∉ p.chain.unclosable → p.planeClear k x = true
          let missed := 0 < v ∧ left < -cp.stopTol ∨ v = 0 ∧ p.chain.parkSet ≠ [] ∧ ¬arrived ∧ pl.moved = true
          (v = 0 → p.chain.parkSet ≠ [] → ¬arrived → pl.moved = false →
            t.chain.mode = .stopping ∧ t.faults = p.faults ∧ t.chain.replans = p.chain.replans ∧ t.park = p.park ∧
            t.chain.plan = some { pl with travel := left }) ∧
          (v = 0 → p.chain.parkSet ≠ [] → -cp.stopTol ≤ left → left ≤ cp.stopTol →
            (∀ k ∈ p.chain.parkSet, k ∉ p.chain.unclosable → p.planeClear k x = true) →
            t.chain.mode = .parked ∧ t.chain.parkSet = p.chain.parkSet ∧ t.chain.plan = none ∧ t.closesTested p p.faults) ∧
          (missed → p.chain.replans < 3 →
            t.chain.mode = .stopping ∧ t.chain.replans = p.chain.replans + 1 ∧ t.faults = p.faults ∧
            t.park.inProgress = some { number := (p.park.lastRequest + 1) % 65536, parkSet := p.chain.parkSet, x, v, stage := .creep,
                                       speed := cp.creep }) ∧
          (missed → 3 ≤ p.chain.replans →
            t.chain.mode = .tripped ∧
            t.faults = p.faults.enter { code := .parkMissed, cycle := p.cycle, station := f.source }) ∧
          (0 < v → -cp.stopTol ≤ left →
            t.chain.mode = .stopping ∧ t.faults = p.faults ∧ t.chain.replans = p.chain.replans ∧
            t.chain.plan = some { pl with travel := left, moved := true })

/-- Drive State, Landing Edge Trip and Presence reports of the drive station (R76, R79), the third miss at the mark (R77, R89), and the end
of the clearing time (R84). A Stop order cancels the clearing timer (R91). That CHAIN_RECORD_STALE and CLEARING_TIMER_EXPIRED act ahead of
the mark and the cycle start, and are without effect when not due, is the model's choice (log 4); so are a cancelled clearing timer of 0 (log
53), and station 0 in a fault while no drive station is named (log 43). -/
def Obligations.DriveReportsTripAndTimersStop : Prop :=
  ∀ (f : From) (c : Ctx) (ds : DriveState) (s : State),
    let p := s.part
    let r := p.chain.record
    let trips := fun (rec : ChainRecord) (code : FaultCode) (t : Part) =>
      t.chain.record = rec ∧ t.offChain = p.offChain ∧ t.chain.mode = .tripped ∧
      (p.chain.mode = .tripped → t.faults = p.faults) ∧
      (p.chain.mode ≠ .tripped →
        t.chain.plan = none ∧ t.chain.parkSet = [] ∧ t.chain.armed = false ∧ t.lampsOrdered p false ∧
        t.faults = p.faults.enter { code, cycle := p.cycle, station := f.source })
    (Gives (.driveState f ds) s fun t =>
      (p.role f.source = some .drive → ds = .fault → trips { r with echo := some .fault } .driveFault t) ∧
      (p.role f.source = some .drive → ds ≠ .fault →
        t.steady = ({ p with chain := { p.chain with record := { r with echo := some ds } } } : Part).steady) ∧
      (p.role f.source ≠ some .drive → t.steady = (p.count f.port .badForm).steady)) ∧
    (Gives (.landingEdgeTrip f) s fun t =>
      (p.role f.source = some .drive → trips { r with edge := true } .landingEdgeTrip t) ∧
      (p.role f.source ≠ some .drive → t.steady = (p.count f.port .badForm).steady)) ∧
    (p.role f.source = some .drive → Gives (.presence f) s fun t => t.steady = p.steady) ∧
    (p.role f.source = none ∨ p.role f.source = some .brigade ∨ p.role f.source = some .office →
      Gives (.presence f) s fun t => t.steady = (p.count f.port .badForm).steady) ∧
    (let due := p.periodic = true ∧ p.chain.reportTaken = false ∧ (r.freshness = .fresh ∨ r.freshness = .extrapolated) ∧ 2 ≤ r.misses
     Gives .chainRecordStale s fun t =>
      (¬due → t.steady = p.steady) ∧
      (due →
        t.chain.record = { r with misses := 3, freshness := .stale } ∧ t.offChain = p.offChain ∧
        (if p.chain.mode = .running ∨ p.chain.mode = .lastCall ∨ p.chain.mode = .stopping then
          t.chain.mode = .halted ∧ t.chain.plan = none ∧ t.chain.parkSet = [] ∧ t.chain.unclosable = [] ∧ t.chain.clearing = 0 ∧
          t.park.inProgress = none ∧ t.lampsOrdered p false ∧
          t.faults = p.faults.enter { code := .chainReportLost, cycle := p.cycle, station := p.driveStation.getD 0 }
        else t.chain.mode = p.chain.mode ∧ t.faults = p.faults))) ∧
    (p.claim = some c.source → p.chain.mode = .running ∨ p.chain.mode = .lastCall →
      Gives (.stop c) s fun t => t.chain.clearing = 0) ∧
    (let due := p.chain.mode = .lastCall ∧ p.chain.clearing ≤ 1
     Gives .clearingTimerExpired s fun t =>
      (¬due → t.steady = p.steady) ∧
      (due →
        p.wantedByMode ∧ t.chain.mode = .stopping ∧ t.chain.record = r ∧ t.chain.parkSet = p.wantedSet ∧ t.chain.unclosable = [] ∧
        t.chain.replans = 0 ∧ t.chain.plan = none ∧ t.lampsOrdered p false ∧ t.offChain = p.offChain ∧ t.faults = p.faults ∧
        t.park.inProgress = some { number := (p.park.lastRequest + 1) % 65536, parkSet := p.wantedSet, x := r.x, v := r.v,
                                   stage := .run, speed := r.v }))

/-- A plan completes (R85, R106, R107): its answer is kept; in Stopping the last plan asked marks the unclosable planes, each new mark with
its fault, and is adopted, or takes the chain to Parked where it finds it clear; a plane that has left the park set since the request is
not marked (R83, R87). On entry to Parked the closable planes are tested for closing (R122, R123; log 52). A Poll that waits for this plan
is answered (R98), to its own source (log 57). Planes are taken in rising number (log 56). Without a plan in progress nothing happens. -/
def Obligations.PlanAnswersAreAdopted : Prop :=
  ∀ s : State,
    let p := s.part
    Gives .planCompleted s fun t =>
      (p.park.inProgress = none → t.steady = p.steady) ∧
      ∀ r, p.park.inProgress = some r →
        let a := p.planAnswer r
        let kept := { p.park with inProgress := none, lastAnswer := some (r, a) }
        t.park = kept ∧ t.chain.record = p.chain.record ∧ t.offChain = p.offChain ∧
        (p.chain.evalPlan = some r.number → t.pollAnswered p false) ∧
        (¬(p.chain.mode = .stopping ∧ r.number = p.park.lastRequest) → t.steady = ({ p with park := kept } : Part).steady) ∧
        (p.chain.mode = .stopping → r.number = p.park.lastRequest →
          let marks := a.unclosable.filter fun k => k ∈ p.chain.parkSet
          t.chain.unclosable = marks ∧ t.chain.parkSet = p.chain.parkSet ∧
          let marked := (marks.filter fun k => !p.chain.unclosable.contains k).foldl (fun fr k =>
            fr.enter { code := .planeUnclosable, cycle := p.cycle, station := (p.plane k).station }) p.faults
          (a.outcome = .clear → t.chain.mode = .parked ∧ t.chain.plan = none ∧ t.closesTested p marked) ∧
          ∀ position travel, a.outcome = .target position travel →
            t.chain.mode = .stopping ∧
            t.chain.plan = some { stage := r.stage, target := position, travel, moved := false } ∧
            t.faults = marked)

/-- A Poll (R96 to R99): from the drive station in the periodic part it is answered at once from the staged permit, on its port, unless in
Held mode the report is still to come, or its plan still in progress, when it waits; a second one is answered with stage None and the overrun
flag. That a Poll
taken in Immediate mode while one still waits counts as a second one is the model's choice (log 42). -/
def Obligations.PollsAreAnswered : Prop :=
  ∀ (f : From) (n : Nat) (s : State),
    let p := s.part
    let c := p.chain
    let unsettled := c.evaluated = false ∧ (c.evalPlan = none ∨ ∃ r, p.park.inProgress = some r ∧ c.evalPlan = some r.number)
    let answer := fun (stage : Stage) (target : Option Nat) (overrun : Bool) =>
      (f.port, builtFrame p.own f.source .drive kindAnswer false false (answerPayload n stage target c.staged.mode false overrun))
    Gives (.poll f n) s fun t =>
      (p.driveStation ≠ some f.source ∨ p.periodic = false → t.steady = (p.count f.port .badForm).steady) ∧
      (p.driveStation = some f.source → p.periodic = true →
        t.steady = p.steady ∧
        (c.waitingPoll = none → p.heldMode = false ∨ c.evaluated = true → (p.port f.port).state.live = true →
          answer c.staged.stage c.staged.target false ∈ t.sent ∧ t.chain.waitingPoll = none) ∧
        (c.waitingPoll = none → p.heldMode = true → unsettled →
          t.sent = [] ∧ t.chain.waitingPoll = some { port := f.port, source := f.source, cycle := n }) ∧
        (c.waitingPoll ≠ none → (p.port f.port).state.live = true →
          answer .none none true ∈ t.sent ∧ t.chain.pollOverruns = bump16 c.pollOverruns ∧
          (unsettled → t.chain.waitingPoll = c.waitingPoll)))

/-- Clearance and park targets, for a loop that passed the checks of R111 with a margin above 0 (at margin 0 the tests of R100 and R101
part where d is 0; log 38). The phase test of R101 is the clearance test of R100. For a park set whose arc starts stand as R101 has
them (R102 to R107), the closable set is as large as the largest run, a target is reached at a travel from D up to one pitch more and is
clear for every closable plane, and an answer Clear is given at speed 0 only. -/
def Obligations.ParkTargetsAreClear : Prop :=
  ∀ (p : Part) (r : PlanRequest) (cp : ChainParams), p.chainParams = some cp →
    cp.cabins ≠ 0 → cp.loop % cp.cabins = 0 → 1500 ≤ cp.pitch → 20 ≤ cp.width → 1 ≤ cp.margin → cp.margin ≤ 255 →
    (∀ c x : Nat, clearAt cp c x = true ↔
      ((x : Int) - ((c : Int) - cp.pitch + cp.margin) % cp.pitch) % cp.pitch ≤ cp.width) ∧
    (r.parkSet ≠ [] → (∀ k ∈ r.parkSet, recordAt p.park.arcStarts k =
        some ((((p.plane k).coordinate : Int) - cp.pitch + cp.margin) % cp.pitch).toNat) →
      let start := fun k => ((recordAt p.park.arcStarts k).getD 0 : Int)
      let a := p.planAnswer r
      a.stopping = (r.speed * r.speed + 2 * cp.decel - 1) / (2 * cp.decel) + (r.speed + 24) / 25 ∧
      a.closable ≠ [] ∧ (∀ k ∈ a.closable, k ∈ r.parkSet) ∧ a.unclosable = r.parkSet.filter (fun k => k ∉ a.closable) ∧
      (∀ q ∈ r.parkSet, (r.parkSet.filter fun k => (start k - start q) % cp.pitch ≤ cp.width).length ≤ a.closable.length) ∧
      (a.outcome = .clear → r.v = 0 ∧ ∀ k ∈ a.closable, p.planeClear k r.x = true) ∧
      ∀ position travel, a.outcome = .target position travel →
        a.stopping ≤ travel ∧ travel < a.stopping + cp.pitch ∧ position = (r.x + travel) % cp.loop ∧
        ∀ k ∈ a.closable, p.planeClear k position = true)

/-! ## The order channels -/

/-- A grant of the channel arbiter, a due retry and an expired reply window (R59, R61, R62, R64, R67, R69): the pending order of the highest
class, of equals the earliest placed, whose target no channel in flight has, enters the lowest Idle channel with the target's toggle
flipped; a build takes a try and offers its frame, or ends the order Unroutable where the target has no route; the owner of an order that
fails or is halted acts by its chapter (R93, R124, R130, R135, R145). The model's choices are that REPLY_WINDOW_EXPIRED acts ahead of the
cycle start, and on no window that is not running out (log 4), that the window of a Halting order not yet transmitted does not run (log
26), what an ended order's transmitted and timer, a stopped play deadline and a stopped travel timer read (logs 40, 53, 70), that an order
is the record's own when it is of the kind of its move (log 71), that a returned item takes a new enqueue cycle (log 37), and that a lamp
fault names station 0 while no drive station is named (log 43). -/
def Obligations.ChannelsBuildOrders : Prop :=
  ∀ (c : Nat) (s : State),
    let p := s.part
    let ch := p.channel c
    let routed := fun st : Station => st ≠ 0 ∧ st ≠ p.own ∧ ∃ ps, p.resolve none (p.route st) = .target ps
    let free := fun o : PendingOrder => ∀ d ∈ channelNumbers, ¬((p.channel d).state ≠ .idle ∧ (p.channel d).target = o.target)
    let frame := fun x : Channel => builtFrame p.own x.target x.cls kindOrder x.toggle true (orderPayload x.order)
    let ended := fun (res : OrderResult) (t : Part) =>
      t.channel c = ch.finish res ∧ (res = .halted → t.orderHalted p ch res) ∧ (res ≠ .halted → t.orderFails p ch res)
    let rebuilt := fun t : Part =>
      (routed ch.target →
        t.channel c = { ch with state := .sending, triesLeft := ch.triesLeft - 1, timer := 0, retryDue := false,
                                build := p.builds + 1, stage := .unsent } ∧
        t.carries p (frame ch) ∧ ({ t with channels := p.channels, builds := p.builds } : Part).steady = p.steady) ∧
      (¬routed ch.target → ended .unroutable t)
    (Gives .channelGrant s fun t =>
      ((∀ d ∈ channelNumbers, (p.channel d).state ≠ .idle) ∨ (∀ o ∈ p.orders, ¬free o) → t.steady = p.steady) ∧
      ∀ (before after : List PendingOrder) (o : PendingOrder), p.channels.length = 12 → c ∈ channelNumbers → ch.state = .idle →
        (∀ d ∈ channelNumbers, d < c → (p.channel d).state ≠ .idle) → p.orders = before ++ o :: after → free o →
        (∀ o' ∈ before, free o' → clsCode o.cls < clsCode o'.cls) → (∀ o' ∈ after, free o' → clsCode o.cls ≤ clsCode o'.cls) →
        t.toggles = p.toggles.modify o.target not ∧
        let x : Channel := { record := o.record, target := o.target, order := o.order, cls := o.cls,
                             toggle := t.toggles.getD o.target false }
        (routed o.target →
          t.channel c = { x with state := .sending, triesLeft := p.triesSetting - 1, build := p.builds + 1, stage := .unsent } ∧
          (∀ d, d ≠ c → t.channel d = p.channel d) ∧ t.carries p (frame x) ∧
          t.steady.orders = p.steady.orders.filter (fun y => y.record ≠ o.record) ∧
          (∀ k, o.record = .post k → o.order ≠ .haltPlay → t.posts = (p.modPost k fun r => { r with phase := .inChannel }).posts) ∧
          ((∀ k, o.record ≠ .post k) ∨ o.order = .haltPlay → t.posts = p.posts) ∧
          ({ t with toggles := p.toggles, channels := p.channels, builds := p.builds, orders := p.orders, posts := p.posts }
            : Part).steady = p.steady) ∧
        (¬routed o.target → (t.channel c).state = .idle ∧ (t.channel c).result = some .unroutable ∧
          t.orderFails (p.granting o) x .unroutable)) ∧
    (Gives (.retryRebuild c) s fun t =>
      (ch.retryDue = false → t.steady = p.steady) ∧ (ch.retryDue = true → rebuilt t)) ∧
    (let due := (ch.state = .awaiting ∨ ch.state = .halting ∧ ch.stage ≠ .unsent) ∧ ch.timer ≤ 1
     Gives (.replyWindowExpired c) s fun t =>
      (¬due → t.steady = p.steady) ∧
      (due → ch.state = .awaiting → 1 ≤ ch.triesLeft → rebuilt t) ∧
      (due → ch.state = .awaiting → ch.triesLeft = 0 → ended .noReply t) ∧
      (due → ch.state = .halting → ended .halted t))

/-- A Confirm (R65, R66, R69): one that matches no channel in flight for its source, or a channel with nothing transmitted, or another
toggle, is stale; a matching one ends the order, has it sent again, or is passed by, by the table of R66. The owner of an order that is
done, has failed or was halted acts by its chapter (R93, R124, R130, R135, R145, R149); a play runs against the deadline of R146 and R147.
The model's choices are what an ended order's transmitted and timer, a stopped play deadline and a stopped travel timer read (logs 40, 53,
70), that an order is the record's own when it is of the kind of its move (log 71), what a halted Lower order does when the move ordered
has changed (log 22), the class of the Halt Play that a halted order brings and the enqueue cycle of a returned item (log 37), that pre-empt
wanted is clear in Halting (log 64), and that a lamp fault names station 0 while no drive station is named (log 43). -/
def Obligations.ConfirmsEndOrders : Prop :=
  (∀ (slots : BitVec 16) (divider repeats : Nat), divider ≤ 7 →
    let codes := [14, 12, 10, 8, 6, 4, 2, 0].map fun i => slots.toNat / 2 ^ i % 4
    let units := ((codes.takeWhile fun x => x ≠ 3).map fun x => if x = 1 then 4 else 2).sum
    (Lookup.pattern slots divider).deadline repeats =
      (repeats * units + (repeats - 1) * 6) * [1, 2, 3, 4, 4, 4, 6, 8].getD divider 0 + 10) ∧
  (∀ seconds repeats : Nat, (Lookup.phrase seconds).deadline repeats = (repeats * seconds + (repeats - 1)) * 50 + 10) ∧
  ∀ (f : From) (toggle : Bool) (result : Nat) (s : State),
    let p := s.part
    let inFlight := fun d => (p.channel d).state ≠ .idle ∧ (p.channel d).target = f.source
    let stale := ({ p with stale := bump16 p.stale } : Part).steady
    Gives (.confirm f toggle result) s fun t =>
      (2 < result → t.steady = (p.count f.port .badForm).steady) ∧
      (result ≤ 2 → (∀ d ∈ channelNumbers, ¬inFlight d) → t.steady = stale) ∧
      ∀ c ∈ channelNumbers, inFlight c → (∀ d ∈ channelNumbers, d < c → ¬inFlight d) → result ≤ 2 →
        let ch := p.channel c
        (¬(ch.transmitted = true ∧ ch.toggle = toggle) → t.steady = stale) ∧
        (ch.transmitted = true → ch.toggle = toggle →
          let ended := fun res : OrderResult => t.channel c = ch.finish res
          let withdrawn := (∀ sl ∈ t.agent.slots, sl.builder ≠ .channel c ch.build) ∧
            (∀ w ∈ t.agent.waiting, w.builder ≠ .channel c ch.build) ∧ ∀ q, t.port q = p.port q
          (ch.state = .awaiting → result = 0 → ended .done) ∧
          (ch.state = .awaiting → result = 1 → 1 ≤ ch.triesLeft →
            t.channel c = { ch with state := .sending, retryDue := true, timer := 0 } ∧
            ({ t with channels := p.channels } : Part).steady = p.steady) ∧
          (ch.state = .awaiting → result = 1 → ch.triesLeft = 0 → ended .refused) ∧
          (ch.state = .awaiting → result = 2 → ended .rejected) ∧
          (ch.state = .sending → result = 0 → ended .done ∧ withdrawn) ∧
          (ch.state = .sending → result = 1 → t.steady = p.steady) ∧
          (ch.state = .sending → result = 2 → ended .rejected ∧ withdrawn) ∧
          (ch.state = .halting → result = 0 → ended .haltedAccepted) ∧
          (ch.state = .halting → 1 ≤ result → ended .halted) ∧
          (ch.state = .awaiting ∨ ch.state = .sending → result = 0 → t.orderDone p ch) ∧
          (ch.state = .awaiting ∨ ch.state = .sending → result = 2 → t.orderFails p ch .rejected) ∧
          (ch.state = .awaiting → result = 1 → ch.triesLeft = 0 → t.orderFails p ch .refused) ∧
          (ch.state = .halting → result = 0 → t.orderHalted p ch .haltedAccepted) ∧
          (ch.state = .halting → 1 ≤ result → t.orderHalted p ch .halted))

/-! ## The well slides and the floor shutters -/

/-- The well slides (R118 to R121): a position report changes every record of its station by the station's ordered move and trips the chain
for an unordered move of an enabled station; after a change of an enabled plane the leaving of Parked and the armed start are tested (R81,
R88). A Presence report ends the silence only. A move that times out is Jammed, a silent station Lost, each with its fault. Moves that a
Close brings or that end with it are left aside. A Fault report enters fault slide fault for an enabled plane it jams, an unordered move
of a station with an enabled plane fault slide moved unordered, once. The model's choices are that SLIDE_TRAVEL_TIMEOUT and
SLIDE_STATION_LOST act ahead of the cycle start, and not before they are due (log 4), that a silent station's fault is entered once (log
27), that one Fault report enters its fault for each plane it jams (log 44), and that a stopped travel timer is 0 (log 70). -/
def Obligations.SlidesFollowTheirReports : Prop :=
  ∀ (f : From) (pos : SlidePos) (k : Nat) (s : State),
    let p := s.part
    let ordered := p.stationMove f.source
    let plain := fun r : SlideRecord => { r.withoutClose with moveAt := 0 }
    let after := fun (j : Nat) (r : SlideRecord) =>
      let r := { r with last := some pos, silence := 0 }
      let go := (p.plane j).travel * 50
      match pos, ordered with
      | .fault, _ => { r with state := .jammed, move := none, timer := 0 }
      | .opened, some .close => r
      | .opened, _ => { r with state := .opened, move := none, timer := 0 }
      | .closed, some .openMove => r
      | .closed, _ => { r with state := .closed, move := none, timer := 0 }
      | .between, some .close => if r.state = .opened then { r with state := .closing, timer := go } else r
      | .between, some .openMove => if r.state = .closed then { r with state := .opening, timer := go } else r
      | .between, none =>
        if r.state = .opened ∨ r.state = .closed ∨ r.state = .lost then { r with state := .unknown } else r
    let unordered := ordered = none ∧ ∃ j ∈ p.planesAt f.source, ∃ r, p.slide j = some r ∧
      (r.state = .opened ∧ (pos = .closed ∨ pos = .between) ∨ r.state = .closed ∧ (pos = .opened ∨ pos = .between))
    let told := fun (code : FaultCode) (t : Part) => t.faults =
      if (p.plane k).enabled then p.faults.enter { code, cycle := p.cycle, station := (p.plane k).station } else p.faults
    (Gives (.slidePosition f pos) s fun t =>
      (p.role f.source = some .slide →
        (∀ j ∈ p.planesAt f.source, (t.slide j).map plain = (p.slide j).map fun r => plain (after j r)) ∧
        (∀ j, j ∉ p.planesAt f.source → (t.slide j).map plain = (p.slide j).map plain) ∧
        (unordered → (∃ j ∈ p.planesAt f.source, (p.plane j).enabled = true) →
          t.chain.mode = .tripped ∧
          t.faults = p.faults.enter { code := .slideMovedUnordered, cycle := p.cycle, station := f.source } ∧
          (p.chain.mode ≠ .tripped → t.chain.plan = none ∧ t.chain.parkSet = [] ∧ t.chain.armed = false)) ∧
        (pos = .fault → t.faults =
          ((p.planesAt f.source).filter fun j => (p.plane j).enabled && (p.slide j).any fun r => r.state ≠ .jammed).foldl
            (fun r _ => r.enter { code := .slideFault, cycle := p.cycle, station := f.source }) p.faults) ∧
        (let changed := ∃ j ∈ p.planesAt f.source, (p.plane j).enabled = true ∧ ∃ r ∈ p.slide j, (after j r).state ≠ r.state
          let trips := unordered ∧ ∃ j ∈ p.planesAt f.source, (p.plane j).enabled = true
          (¬trips → changed → p.chain.mode = .halted ∨ p.chain.mode = .parked ∧ p.wantedSet = [] ∧ t.wellOpen →
            t.haltedStarts p p.chain.armed ∧ (t.chain.mode = .running → t.chain.armed = false)) ∧
          (¬trips → p.chain.mode = .parked → ¬(changed ∧ p.wantedSet = [] ∧ t.wellOpen) →
            t.chain.mode = .parked ∧ t.chain.parkSet = p.chain.parkSet ∧ t.chain.unclosable = p.chain.unclosable) ∧
          (¬trips → ¬changed ∨ p.chain.mode ≠ .halted ∧ p.chain.mode ≠ .parked → t.chain.mode = p.chain.mode)) ∧
        t.chain.record = p.chain.record ∧ t.offSlides = p.offSlides) ∧
      (p.role f.source ≠ some .slide → t.steady = (p.count f.port .badForm).steady)) ∧
    (p.role f.source = some .slide → Gives (.presence f) s fun t =>
      (∀ j ∈ p.planesAt f.source, (t.slide j).map plain = (p.slide j).map fun r => plain { r with silence := 0 }) ∧
      (∀ j, j ∉ p.planesAt f.source → (t.slide j).map plain = (p.slide j).map plain) ∧
      ({ t with slides := p.slides } : Part).steady = p.steady) ∧
    (k ∈ planeNumbers → Gives (.slideTravelTimeout k) s fun t =>
      (∀ r, p.slide k = some r → r.state = .closing ∨ r.state = .opening → r.timer ≤ 1 →
        told .slideJammed t ∧ ({ t with faults := p.faults } : Part).steady =
          (p.modSlide k fun r => { r with state := .jammed, move := none, timer := 0 }).steady) ∧
      ((∀ r, p.slide k = some r → r.state ≠ .closing ∧ r.state ≠ .opening ∨ 1 < r.timer) → t.steady = p.steady)) ∧
    (k ∈ planeNumbers → Gives (.slideStationLost k) s fun t =>
      (∀ r, p.slide k = some r → r.silence = 49 →
        ((∀ j ∈ p.planesAt (p.plane k).station, j ≠ k → ∀ q, p.slide j = some q → q.silence ≠ 50) → told .slideStationLost t) ∧
        ({ t with faults := p.faults } : Part).steady =
          (p.modSlide k fun r => { r with state := .lost, move := none, timer := 0, silence := 50 }).steady) ∧
      ((∀ r, p.slide k = some r → r.silence ≠ 49) → t.steady = p.steady))

/-- The floor shutters (R129, R130, R132): a position report changes its record by the record's own move; a move that times out is Jammed,
a silent station Lost, each with its fault; a Presence report ends the silence only. At each change of state the compartment's sequence is
tested: while the group it has reached is not settled nothing else is ordered; once it is, the selected shutters of the next group are given
their Lower orders, or the sequence is Complete (R131). Under a set dropped flag a shutter that has become Paused or Jammed is given Lower
Full again, when it is Paused or Open with no move ordered, and the sequence is Complete when every shutter is Lowered, Jammed or Lost
(R134; what a shutter is owed is log 23). That SHUTTER_TRAVEL_TIMEOUT and
SHUTTER_STATION_LOST act ahead of the cycle start, and not before they are due, is the model's choice (log 4), and so is a stopped travel
timer of 0 (log 70). -/
def Obligations.ShuttersFollowTheirReports : Prop :=
  ∀ (f : From) (pos : ShutterPos) (k : Nat) (r : ShutterRecord) (s : State),
    let p := s.part
    let e := p.shutter k
    let seq := p.seq e.compartment
    let go := e.travel * 50
    let seen := { r with last := some pos, silence := 0 }
    let ends := fun st : ShutterState => { seen with state := st, move := none, timer := 0 }
    let after : ShutterRecord :=
      match pos, r.move with
      | .fault, _ => ends .jammed
      | .opened, none => ends .opened
      | .opened, some .raise => ends .opened
      | .opened, some _ => seen
      | .atPause, none => ends .paused
      | .atPause, some .toPause => ends .paused
      | .atPause, some _ => seen
      | .lowered, some .raise => seen
      | .lowered, _ => ends .lowered
      | .between, none => if r.state = .jammed then seen else ends .unknown
      | .between, some .raise =>
        if r.state = .paused ∨ r.state = .lowered ∨ r.state = .unknown then { seen with state := .raising, timer := go } else seen
      | .between, some _ =>
        if r.state = .opened ∨ r.state = .paused ∨ r.state = .unknown then { seen with state := .lowering, timer := go } else seen
    let shape := fun x : ShutterRecord => (x.state, x.last, x.timer, x.silence)
    let becomes := fun (x : ShutterRecord) (t : Part) =>
      (t.shutterRec k).map shape = some (shape x) ∧
      (∀ j, j ≠ k → (t.shutterRec j).map shape = (p.shutterRec j).map shape) ∧ t.offShutters = p.offShutters
    let told := fun (code : FaultCode) (t : Part) => t.faults = p.faults.enter { code, cycle := p.cycle, station := e.station }
    let counts := fun st : ShutterState => st = .paused ∨ st = .lowered ∨ st = .jammed ∨ st = .lost
    let group := p.groupOf e.compartment
    let selected := fun j => seq.cause ≠ some .night ∨ (p.shutter j).night = true
    let lower := fun j : Nat =>
      if (p.shutter j).escape = true ∧ seq.cause = some .evacuation ∧ seq.timer ≠ 0 then ShutterMove.toPause else .full
    let given := fun (j : Nat) (m : ShutterMove) (t : Part) =>
      (t.shutterRec j).map (fun y => y.move) = (p.shutterRec j).map (fun _ => some m) ∧
      ((∀ o, p.pendingOrder (.shutter j) = some o → o.order ≠ m.order) →
        t.pendingOrder (.shutter j) =
          some { record := .shutter j, target := (p.shutter j).station, order := m.order, cls := .safety, placed := p.cycle }) ∧
      ∀ o, p.pendingOrder (.shutter j) = some o → o.order = m.order → t.pendingOrder (.shutter j) = some o
    let follows := fun (x : ShutterRecord) (t : Part) => p.sequences.length = 8 → x.state ≠ r.state → e.compartment ∈ compartments →
      let settled := ∀ j ∈ group seq.group, counts (t.shutterState j)
      (seq.dropped = false → seq.state ≠ .sequencing ∨ ¬settled →
        ({ t with faults := p.faults } : Part).steady = (p.modShutter k fun _ => x).steady) ∧
      (seq.dropped = false → seq.state = .sequencing → settled →
        (∀ h ∈ groupNumbers, seq.group < h → ∀ j ∈ group h, ¬selected j) → t.seq e.compartment = { seq with state := .complete }) ∧
      (∀ g ∈ groupNumbers, seq.dropped = false → seq.state = .sequencing → settled → seq.group < g →
        (∀ h ∈ groupNumbers, seq.group < h → h < g → ∀ j ∈ group h, ¬selected j) → (∃ j ∈ group g, selected j) →
        (∃ j ∈ group g, ¬counts (t.shutterState j)) →
        t.seq e.compartment = { seq with group := g } ∧
        ∀ j ∈ group g, selected j →
          let st := t.shutterState j
          st ≠ .jammed → st ≠ .lost → st ≠ .lowered → ¬(st = .paused ∧ lower j = .toPause) → given j (lower j) t) ∧
      (seq.dropped = true →
        let owed := r.owed = true ∨ x.state = .paused ∨ x.state = .jammed
        let again := owed ∧ x.move = none ∧ (x.state = .paused ∨ x.state = .opened)
        (again →
          t.shutterRec k = some { x with owed := false, move := some .full } ∧
          t.pendingOrder (.shutter k) =
            some { record := .shutter k, target := e.station, order := .shutterFull, cls := .safety, placed := p.cycle }) ∧
        (¬again →
          t.shutterRec k = some { x with owed := decide owed } ∧ t.pendingOrder (.shutter k) = p.pendingOrder (.shutter k)) ∧
        t.seq e.compartment =
          if seq.state = .sequencing ∧ ∀ j ∈ p.shuttersOf e.compartment,
            t.shutterState j = .lowered ∨ t.shutterState j = .jammed ∨ t.shutterState j = .lost then { seq with state := .complete }
          else seq)
    p.shutterRec k = some r →
    (p.role f.source = some .shutter → p.shutterAt f.source = some k → Gives (.shutterPosition f pos) s fun t =>
      becomes after t ∧
      (pos = .fault → r.state ≠ .jammed → told .shutterFault t) ∧ (pos ≠ .fault ∨ r.state = .jammed → t.faults = p.faults) ∧
      (after.state = r.state → t.steady = (p.modShutter k fun _ => after).steady) ∧ follows after t) ∧
    (p.role f.source ≠ some .shutter → Gives (.shutterPosition f pos) s fun t =>
      t.steady = (p.count f.port .badForm).steady) ∧
    (p.role f.source = some .shutter → p.shutterAt f.source = some k → Gives (.presence f) s fun t =>
      t.steady = (p.modShutter k fun _ => { r with silence := 0 }).steady) ∧
    (Gives (.shutterTravelTimeout k) s fun t =>
      let due := (r.state = .lowering ∨ r.state = .raising) ∧ r.timer ≤ 1
      (due → becomes { r with state := .jammed, timer := 0 } t ∧ told .shutterJammed t ∧
        (t.shutterRec k).map (fun x => x.move) = some none ∧ follows { r with state := .jammed, move := none, timer := 0 } t) ∧
      (¬due → t.steady = p.steady)) ∧
    (Gives (.shutterStationLost k) s fun t =>
      (r.silence = 49 → becomes { r with state := .lost, timer := 0, silence := 50 } t ∧ told .shutterStationLost t ∧
        (t.shutterRec k).map (fun x => x.move) = some none ∧
        follows { r with state := .lost, move := none, timer := 0, silence := 50 } t) ∧
      (r.silence ≠ 49 → t.steady = p.steady))

/-- The end of an escape hold (R133) and Drop Now (R134): every escape shutter of the groups reached that still stands, or every shutter of
a compartment of the mask not Lowered, is given Lower Full. What a shutter is owed since an earlier Drop Now stays owed. A Drop Now in
Unloaded is ignored; one from no fire panel is bad form. The
model's choices are that ESCAPE_HOLD_EXPIRED acts ahead of the cycle start, and not before it is due (log 4), and that an evacuation
sequence keeps its state at a Drop Now (log 23). Any other is Sequencing at its last group, until a shutter's state changes, but in a
compartment with no shutter, where it is Complete at once (R131). -/
def Obligations.StandingShuttersAreLowered : Prop :=
  ∀ (f : From) (mask : Byte) (c : Nat) (s : State),
    let p := s.part
    let q := p.setPanel f.source 0
    let full := fun (k : Nat) (t : Part) =>
      (t.shutterRec k).map (fun r => r.move) = (p.shutterRec k).map (fun _ => some .full) ∧
      ∃ o, t.pendingOrder (.shutter k) = some o ∧ o.order = .shutterFull
    let stands := fun k => p.shutterState k ≠ .lowered
    (Gives (.escapeHoldExpired c) s fun t =>
      ((p.seq c).timer ≠ 1 → t.steady = p.steady) ∧
      ((p.seq c).timer = 1 →
        t.seq c = { p.seq c with timer := 0 } ∧ (∀ d, d ≠ c → t.seq d = p.seq d) ∧
        (∀ k ∈ p.shuttersOf c, (p.shutter k).escape = true → (p.shutter k).group ≤ (p.seq c).group → stands k →
          p.shutterState k ≠ .jammed → p.shutterState k ≠ .lost → full k t) ∧
        (∀ k, ¬(k ∈ p.shuttersOf c ∧ (p.shutter k).escape = true ∧ (p.shutter k).group ≤ (p.seq c).group) →
          t.shutterRec k = p.shutterRec k ∧ t.pendingOrder (.shutter k) = p.pendingOrder (.shutter k)) ∧
        (∀ k, t.shutterState k = p.shutterState k) ∧ t.offShutters = p.offShutters ∧ t.faults = p.faults)) ∧
    (Gives (.dropNow f mask) s fun t =>
      (p.role f.source ≠ some .firePanel → t.steady = (p.count f.port .badForm).steady) ∧
      (p.role f.source = some .firePanel → p.day.mode = .unloaded → t.steady = q.steady) ∧
      (p.role f.source = some .firePanel → p.day.mode ≠ .unloaded → p.sequences.length = 8 →
        t.offShutters = q.offShutters ∧ t.faults = p.faults ∧ (∀ k, t.shutterState k = p.shutterState k) ∧
        ∀ d ∈ compartments,
          (mask.getLsbD (d - 1) = false → t.seq d = p.seq d ∧ ∀ k ∈ p.shuttersOf d, t.shutterRec k = p.shutterRec k) ∧
          (mask.getLsbD (d - 1) = true →
            (t.seq d).dropped = true ∧
            ((p.seq d).dropped = true → ∀ k ∈ p.shuttersOf d,
              (t.shutterRec k).map (fun r => r.owed) = (p.shutterRec k).map fun r => r.owed) ∧
            (t.seq d).cause = (if (p.seq d).cause = some .evacuation then some .evacuation else some .drop) ∧
            (∀ k ∈ p.shuttersOf d, stands k → full k t) ∧
            (let last := fun g => g ∈ groupNumbers ∧ p.groupOf d g ≠ [] ∧ ∀ h ∈ groupNumbers, g < h → p.groupOf d h = []
             ((p.seq d).cause = some .evacuation →
               (t.seq d).state = (p.seq d).state ∧ (t.seq d).since = (p.seq d).since ∧ (t.seq d).timer = (p.seq d).timer) ∧
             ((p.seq d).cause ≠ some .evacuation → (t.seq d).state = if p.shuttersOf d = [] then .complete else .sequencing) ∧
             ((t.seq d).state = .sequencing → ∀ g, last g → (t.seq d).group = g)))))

/-! ## The signal posts -/

/-- A report of a signal post (R140, R144, R148, R150): it ends the silence; in Unknown and Lost it makes the post Idle, while a play runs
Post Done completes it, and Post Halted and Post Ready end it as halted: an item with nothing left is Completed, a Test item or a passed
step's is Discarded, another goes back in front of its priority, unless its call is gone or the stream has stopped, and the head is
dispatched. An Idle post takes its queue's head when its code or cue is loaded. The model's choices are that in Playing an item with
nothing left is Completed whatever its source, and in Halting R150's table is followed as written (log 25), that a returned item has the
cycle of its return (log 37), that a stopped play deadline is 0 (log 53), and that pre-empt wanted goes with the item (log 64). -/
def Obligations.PostsFollowTheirReports : Prop :=
  ∀ (f : From) (n k : Nat) (r : Post) (s : State),
    let p := s.part
    let heard := { r with silence := 0, heard := true }
    let silenceEnds := fun t : Part => t.steady = (p.modPost k fun _ => heard).steady
    let next := fun x : Post =>
      match x.queue with
      | [] => x
      | it :: rest =>
        match p.lookUp it with
        | some (l, _) => { x with queue := rest, current := some it, phase := .pending, lookup := some l }
        | none => x
    let headLoaded := ∀ it rest, r.queue = it :: rest → (p.lookUp it).isSome = true
    let others := fun t : Part => (∀ j, j ≠ k → t.post j = p.post j) ∧ t.offPosts = p.offPosts ∧ t.faults = p.faults ∧
      t.channels = p.channels
    let outcome := fun (it : Item) (o : ItemOutcome) (t : Part) =>
      t.post k = some (next { heard with
        state := .idle, current := none, phase := .none, preempt := false, deadline := 0, lookup := none
        lastTest := if it.source = .test then some o else r.lastTest }) ∧
      t.calls = p.calls.map (fun c => if it.source = .call c.id then
        (if o = .completed then { c with completed := bump8 c.completed } else { c with lost := bump8 c.lost }) else c) ∧
      t.fire.streamCompleted = (if it.source = .stream ∧ o = .completed then bump16 p.fire.streamCompleted
        else p.fire.streamCompleted) ∧
      t.fire.streamLost = (if it.source = .stream ∧ o ≠ .completed then bump16 p.fire.streamLost else p.fire.streamLost) ∧ others t
    let halted := fun (c : Nat) (t : Part) => ∀ it, r.current = some it →
      let left := it.repeats - c
      (headLoaded → r.state = .playing → left = 0 → outcome it .completed t) ∧
      (headLoaded → r.state = .playing ∨ r.state = .halting → it.source = .test → r.state = .halting ∨ 0 < left →
        outcome it .discarded t) ∧
      (headLoaded → r.state = .playing ∨ r.state = .halting → ∀ m, it.source = .step m → p.day.lastStep ≠ some m →
        r.state = .halting ∨ 0 < left → outcome it .discarded t) ∧
      (headLoaded → r.state = .halting → left = 0 → (∀ m, it.source ≠ .step m) → it.source ≠ .test → outcome it .completed t) ∧
      (headLoaded → r.state = .halting → left = 0 → ∀ m, it.source = .step m → p.day.lastStep = some m → outcome it .completed t) ∧
      (headLoaded → r.state = .playing ∨ r.state = .halting → 0 < left → ¬p.takesBack it →
        t.post k = some (next { heard with
          state := .idle, current := none, phase := .none, preempt := false, deadline := 0, lookup := none }) ∧
        t.calls = p.calls ∧ t.fire = p.fire ∧ others t) ∧
      (r.state = .playing ∨ r.state = .halting → 0 < left → r.queue.length < 8 → (∀ x ∈ r.queue, x.source ≠ it.source) →
        it.source ≠ .test → (∀ m, it.source = .step m → p.day.lastStep = some m) → p.takesBack it →
        ∀ y rest, r.queue = y :: rest →
          let back := { it with repeats := left, enqueued := p.cycle }
          let idle := { heard with state := .idle, phase := .pending, preempt := false, deadline := 0 }
          (it.rank < y.rank → ∀ x ∈ p.lookUp y,
            t.post k = some { idle with
              current := some y, lookup := some x.1
              queue := rest.takeWhile (fun z => it.rank < z.rank) ++ back :: rest.dropWhile fun z => it.rank < z.rank } ∧
            t.pendingOrder (.post k) = some (p.playOrder k y x.2) ∧ others t) ∧
          (y.rank ≤ it.rank → ∀ x ∈ p.lookUp back,
            t.post k = some { idle with current := some back, lookup := some x.1 } ∧
            t.pendingOrder (.post k) = some (p.playOrder k it x.2) ∧ others t)) ∧
      (r.state = .playing ∨ r.state = .halting → 0 < left → r.queue = [] →
        (∃ id, it.source = .call id ∧ ∃ c ∈ p.calls, c.id = id) ∨ (∃ m, it.source = .step m ∧ p.day.lastStep = some m) ∨
          it.source = .stream ∧ p.fire.streamOn = true →
        ∀ l o, p.lookUp { it with repeats := left } = some (l, o) →
          t.post k = some { heard with
            state := .idle, current := some { it with repeats := left, enqueued := p.cycle }, phase := .pending, preempt := false
            deadline := 0, lookup := some l } ∧
          t.pendingOrder (.post k) = some { record := .post k, target := (p.postEntry k).station, order := o,
                                            cls := if it.source = .stream then .safety else .signal, placed := p.cycle } ∧
          others t)
    let common := fun t : Part =>
      (r.state = .idle ∨ r.state = .disabled → silenceEnds t) ∧
      (headLoaded → r.current = none → r.state = .unknown ∨ r.state = .lost →
        t.post k = some (next { heard with state := .idle }) ∧ others t)
    p.post k = some r → p.postAt f.source = some k →
    (p.role f.source ≠ some .post →
      (Gives (.postReady f) s fun t => t.steady = (p.count f.port .badForm).steady) ∧
      (Gives (.postDone f n) s fun t => t.steady = (p.count f.port .badForm).steady) ∧
      (Gives (.postHalted f n) s fun t => t.steady = (p.count f.port .badForm).steady)) ∧
    (p.role f.source = some .post →
      (Gives (.presence f) s fun t => common t ∧ (r.state = .playing ∨ r.state = .halting → silenceEnds t)) ∧
      (Gives (.postReady f) s fun t => common t ∧ halted 0 t) ∧
      (Gives (.postHalted f n) s fun t => common t ∧ halted n t) ∧
      (Gives (.postDone f n) s fun t => common t ∧
        (headLoaded → r.state = .playing ∨ r.state = .halting → ∀ it, r.current = some it → outcome it .completed t)))

/-- A play overruns its deadline (R147), and a post falls silent (R140): the post is Lost without its current item, which is Discarded, and
without its pending order, its queue is kept, and the fault is entered. A Disabled post only has no report on
hand any more (R138). That
PLAY_DEADLINE_EXPIRED and POST_STATION_LOST act ahead of the cycle start, and not before they are due, is the model's choice (log 4), and
so are a stopped play deadline of 0 (log 53), and that pre-empt wanted goes with the item (log 64). -/
def Obligations.PostsAreLost : Prop :=
  ∀ (k : Nat) (r : Post) (s : State),
    let p := s.part
    let idle := { r with current := none, phase := .none, preempt := false, deadline := 0, lookup := none, state := .lost,
                         lastTest := if (r.current.any fun it : Item => it.source = ItemSource.test) then some .discarded else r.lastTest }
    let lost := fun (t : Part) (code : FaultCode) =>
      (∀ j, j ≠ k → t.post j = p.post j) ∧ t.offPosts = p.offPosts ∧
      t.steady.orders = p.steady.orders.filter (fun o => o.record ≠ .post k) ∧
      t.faults = p.faults.enter { code, cycle := p.cycle, station := (p.postEntry k).station } ∧
      t.calls = p.calls.map (fun c => if (r.current.any fun it : Item => it.source = ItemSource.call c.id) then { c with lost := bump8 c.lost } else c)
    p.post k = some r →
    (Gives (.playDeadlineExpired k) s fun t =>
      let due := (r.state = .playing ∨ r.state = .halting) ∧ r.deadline ≤ 1
      (¬due → t.steady = p.steady) ∧
      (due → t.post k = some idle ∧ lost t .postPlayOverdue ∧ t.channels = p.channels ∧
        t.postCounts = (p.modPostCount k fun n => { n with overdue := bump16 n.overdue }).postCounts)) ∧
    Gives (.postStationLost k) s fun t =>
      (r.silence ≠ 49 → t.steady = p.steady) ∧
      (r.silence = 49 → r.state = .disabled →
        t.steady = (p.modPost k fun _ => { r with silence := 50 }).steady) ∧
      (r.silence = 49 → r.state ≠ .disabled →
        t.post k = some { idle with silence := 50 } ∧ lost t .postStationLost ∧ t.postCounts = p.postCounts ∧
        t.channels = p.channels.map fun c => if c.state ≠ .idle ∧ c.record = .post k then { c with deaf := true } else c)

/-! ## Staff bell calls -/

/-- A Call (R156 to R159): refused, merged or made a new call by the first test that applies, with its Confirm; a round is handed in at
once, and an Idle post of the round with nothing to play takes its item. Tallies of outcomes are left aside. That the Confirm is offered
before the round is handed in, and so before the Notices that the round brings, is the model's choice (log 75). -/
def Obligations.CallsAreAnswered : Prop :=
  ∀ (f : From) (cls : Cls) (toggle : Bool) (code : Nat) (posts : BitVec 16) (rounds interval : Nat) (s : State),
    let p := s.part
    let valid := 1 ≤ code ∧ code ≤ 48 ∧ 1 ≤ rounds ∧ rounds ≤ 15 ∧ 5 ≤ interval ∧ interval ≤ 300 ∧ posts ≠ 0#16
    let confirm := fun (res : ConfirmResult) (id : Nat) (reason : CallReason) =>
      builtFrame p.own f.source cls kindConfirm toggle false
        [byteOf (confirmCode res), byteOf id, byteOf (callReasonCode reason), 0#8]
    let turnedAway := fun (t : Part) (res : ConfirmResult) (reason : CallReason) =>
      t.steady = p.steady ∧ t.carries p (confirm res 0 reason)
    let blank := fun c : Call => { c with completed := 0, lost := 0 }
    let rung := fun (t : Part) (id : Nat) (e : BellEntry) (reached : Nat → Bool) =>
      ∀ k ∈ p.enabledPosts, reached k = true → ∀ r, p.post k = some r → r.state = .idle → r.current = none → r.queue = [] →
        t.post k = some { r with
          current := some { content := .pattern code, source := .call id, repeats := e.repeats, enqueued := p.cycle }
          phase := .pending, lookup := some (.pattern e.slots e.divider) }
    let inService := p.day.mode ≠ .unloaded ∧ p.day.mode ≠ .evacuation
    Gives (.call f cls toggle code posts rounds interval) s fun t =>
      (¬valid → turnedAway t .rejected .outOfRange) ∧
      (valid → p.day.mode = .unloaded → turnedAway t .rejected .notInService) ∧
      (valid → p.day.mode = .evacuation → turnedAway t .rejected .evacuation) ∧
      (valid → inService → p.bell code = none → turnedAway t .rejected .notLoaded) ∧
      (valid → inService → ∀ e, p.bell code = some e →
        (∀ before after c, p.calls = before ++ c :: after → c.code = code → (∀ x ∈ before, x.code ≠ code) →
          t.calls.map blank = p.calls.map (fun x => blank (if x.id = c.id then
            { x with remaining := max x.remaining rounds, given := max x.given rounds, posts := x.posts ||| posts } else x)) ∧
          t.carries p (confirm .accepted c.id .merged) ∧
          rung t c.id e (fun k => (posts &&& ~~~c.posts).getLsbD (k - 1)) ∧
          ({ t with calls := p.calls } : Part).offPosts = p.offPosts) ∧
        ((∀ x ∈ p.calls, x.code ≠ code) → 16 ≤ p.calls.length → turnedAway t .busy .tableFull) ∧
        ((∀ x ∈ p.calls, x.code ≠ code) → p.calls.length < 16 →
          (∀ x ∈ p.calls, x.id ≠ t.lastCall) ∧
          ((∀ x ∈ p.calls, x.id ≠ if p.lastCall < 255 then p.lastCall + 1 else 1) →
            t.lastCall = if p.lastCall < 255 then p.lastCall + 1 else 1) ∧
          t.calls.map blank = (p.calls.takeWhile (fun x => x.id < t.lastCall)).map blank ++
            { id := t.lastCall, origin := f.source, replyClass := cls, replyToggle := toggle, originalCode := code, code, posts,
              given := rounds, remaining := rounds, interval, nextRound := interval * 50, escalated := false,
              completed := 0, lost := 0 } :: (p.calls.dropWhile fun x => x.id < t.lastCall).map blank ∧
          t.carries p (confirm .accepted t.lastCall .new) ∧ rung t t.lastCall e (fun k => posts.getLsbD (k - 1)) ∧
          ({ t with calls := p.calls, lastCall := p.lastCall } : Part).offPosts = p.offPosts))

/-- A due round and an Acknowledge (R159 to R163): the next round counted down and handed in, at the run-out the escalation, or the expiry
with its Confirm to the origin; an Acknowledge ends every call it answers, or is counted as unmatched. Of an ended call's items a waiting
one goes, and a current one whose Play order is pending, with that order; one in a channel or playing stays (R143, R161). That ROUND_DUE
acts ahead of the cycle start, which then leaves the countdown, and not before it is due, is the model's choice (log 4), and so are a
stopped play deadline of 0 (log 53), that pre-empt wanted goes with the item (log 64), and that the Confirm of an expired call is offered
before the Notices (log 72). -/
def Obligations.CallsRunOutOrAreAnswered : Prop :=
  ∀ (f : From) (id form n : Nat) (c : Call) (s : State),
    let p := s.part
    let blank := fun c : Call => { c with completed := 0, lost := 0 }
    let rung := fun (t : Part) (code : Nat) (posts : BitVec 16) =>
      ∀ e, p.bell code = some e → ∀ k ∈ p.enabledPosts, posts.getLsbD (k - 1) = true → ∀ r, p.post k = some r →
        r.state = .idle → r.current = none → r.queue = [] →
        t.post k = some { r with
          current := some { content := .pattern code, source := .call id, repeats := e.repeats, enqueued := p.cycle }
          phase := .pending, lookup := some (.pattern e.slots e.divider) }
    let others := fun t : Part => t.ahead = .round id :: p.ahead ∧
      ({ t with calls := p.calls, ahead := p.ahead } : Part).offPosts = p.offPosts
    let due := p.callOf id = some c ∧ c.nextRound = 1 ∧ Ahead.round id ∉ p.ahead
    let runsOut := c.remaining ≤ 1
    let answers := fun x : Call => form = 0 ∧ x.id = n ∨ form = 1 ∧ (x.code = n ∨ x.escalated = true ∧ x.originalCode = n)
    let named := form = 0 ∧ n ≠ 0 ∨ form = 1 ∧ 1 ≤ n ∧ n ≤ 48
    (Gives (.roundDue id) s fun t =>
      (p.callOf id = none ∨ (∃ x, p.callOf id = some x ∧ x.nextRound ≠ 1) ∨ Ahead.round id ∈ p.ahead → t.steady = p.steady) ∧
      (due → ∀ e, p.bell c.code = some e →
        (¬runsOut →
          t.calls.map blank = p.calls.map (fun x => blank (if x.id = id then
            { x with remaining := x.remaining - 1, nextRound := x.interval * 50 } else x)) ∧
          rung t c.code c.posts ∧ others t) ∧
        (runsOut → c.escalated = false → e.escCode ≠ 0 →
          t.calls.map blank = p.calls.map (fun x => blank (if x.id = id then
            { x with code := e.escCode, posts := BitVec.ofNat 16 (2 ^ (e.escPost - 1)), remaining := x.given, escalated := true,
                     nextRound := x.interval * 50 } else x)) ∧
          rung t e.escCode (BitVec.ofNat 16 (2 ^ (e.escPost - 1))) ∧ others t)) ∧
      (due → p.bell c.code = none ∨ runsOut ∧ (c.escalated = true ∨ ∃ e, p.bell c.code = some e ∧ e.escCode = 0) →
        t.calls.map blank = (p.calls.filter fun x => x.id ≠ id).map blank ∧
        t.carries p (builtFrame p.own c.origin c.replyClass kindConfirm c.replyToggle false
          [byteOf (confirmCode .rejected), byteOf id, byteOf (callReasonCode .expired), byteOf c.completed]) ∧
        (∀ k ∈ postNumbers, ∀ r, t.post k = some r → ∀ it ∈ r.queue, it.source ≠ .call id) ∧ others t)) ∧
    Gives (.acknowledge f form n) s fun t =>
      (¬named → t.steady = (p.count f.port .badForm).steady) ∧
      (named → (∀ x ∈ p.calls, ¬answers x) → t.steady = ({ p with unmatched := bump16 p.unmatched } : Part).steady) ∧
      (named → (∃ x ∈ p.calls, answers x) →
        t.calls.map blank = (p.calls.filter fun x => p.calls.all fun y => !(decide (answers y) && y.id = x.id)).map blank ∧
        (∀ y ∈ p.calls, answers y → ∀ k ∈ postNumbers, ∀ r, t.post k = some r → ∀ it ∈ r.queue, it.source ≠ .call y.id) ∧
        (∀ k ∈ postNumbers, ∀ r ∈ p.post k, ∀ it ∈ r.current,
          let ended := fun x : Item => p.calls.any fun y => decide (answers y) && x.source = ItemSource.call y.id
          let left := r.queue.filter fun x => !ended x
          (r.phase = .inChannel ∨ r.phase = .confirmed ∧ r.state ≠ .idle ∨ ended it = false → t.post k = some { r with queue := left } ∧
            t.pendingOrder (.post k) = p.pendingOrder (.post k)) ∧
          (r.phase = .pending → ended it = true → left = [] →
            t.post k = some { r with current := none, phase := .none, preempt := false, deadline := 0, lookup := none, queue := [] } ∧
            t.pendingOrder (.post k) = none)) ∧
        ({ t with calls := p.calls } : Part).offPosts = p.offPosts)

/-! ## The store day -/

/-- The clock advances (R165, R167, R170): the step that the pointer names is reached when its time has come, the pointer moves on, and out
of Unloaded and Evacuation the step is taken: its mode, which the chain follows (R81 to R88), its record, its phrase at each post of its
mask (R149 where something plays), and its requests: an Open step orders the slides open (R125), raises the shutters (R135) and with its
start flag arms the chain (R81); a Night step lowers the night shutters (R131). That CLOCK_ADVANCE acts ahead of the cycle start, which
then leaves the clock, not before it is due, and with the cycle number then current in the step's record, is the model's choice (log 4); so
are that the start-armed flag is not tested at its setting (log 20), the enqueue cycle of a returned item (log 37), what the ended sequences
hold (log 45), the stopped play deadline and clearing timer (log 53), and that pre-empt wanted goes with the item (log 64). -/
def Obligations.ClockAdvancesTakeSteps : Prop :=
  ∀ s : State,
    let p := s.part
    let due := p.day.clockSet = true ∧ p.day.sub = 49
    let second := (p.day.second + 1) % 86400
    let day := { p.day with sub := 0, second }
    let reached := fun st : Step => st ∈ p.steps ∧ p.day.pointer = some st.number ∧ st.time = second
    let pointer := fun st : Step => match p.steps.find? fun x => st.number < x.number with
      | some x => some x.number
      | none => p.steps.head?.map fun x => x.number
    Gives .clockAdvance s fun t =>
      (¬due → t.steady = p.steady) ∧
      (due → (∀ st, ¬reached st) → t.steady = ({ p with day, ahead := .clock :: p.ahead } : Part).steady) ∧
      ∀ st, due → reached st →
        (p.day.mode = .unloaded ∨ p.day.mode = .evacuation →
          t.steady = ({ p with day := { day with pointer := pointer st }, ahead := .clock :: p.ahead } : Part).steady) ∧
        (p.day.mode ≠ .unloaded → p.day.mode ≠ .evacuation →
          t.day.mode = st.action.mode ∧ t.day.lastStep = some st.number ∧ t.day.pointer = pointer st ∧ t.day.second = second ∧
          t.day.sub = 0 ∧ t.day.alarm = p.day.alarm ∧ t.day.alarmRun = p.day.alarmRun ∧ t.ahead = .clock :: p.ahead ∧
          t.line = p.line ∧ t.fire.zones = p.fire.zones ∧ t.fire.streamOn = p.fire.streamOn ∧
          (t.day.mode ≠ p.day.mode → t.chainFollowsMode p) ∧
          (st.action = .opening → st.start = true → t.chain.mode ≠ .tripped → t.chain.armed = true) ∧
          (p.day.steps.length = 12 → (t.day.steps.getD (st.number - 1) {}).cycle = some p.cycle ∧
            (t.day.steps.getD (st.number - 1) {}).completed = 0 ∧
            (st.cue = 0 → (t.day.steps.getD (st.number - 1) {}).lost = 0)) ∧
          (st.action = .opening → ∀ k ∈ p.enabledPlanes, ∀ r ∈ p.slide k, r.state ≠ .opened → r.move ≠ some .openMove →
            t.pendingOrder (.slide k) = some { record := .slide k, target := (p.plane k).station, order := .slideOpen,
                                               cls := .safety, placed := p.cycle } ∧
            (t.slide k).map (fun y => (y.state, y.move)) = some (r.state, some .openMove)) ∧
          (st.action = .night → p.sequences.length = 8 → ∀ d ∈ compartments,
            let lowest := (p.groupsOf d).headD 0
            let called := (∃ k ∈ p.shuttersOf d, (p.shutter k).night = true) ∧
              ((p.seq d).state = .idle ∨ (p.seq d).state = .complete ∧ (p.seq d).cause = some .night)
            let settled := fun k => p.shutterState k = .paused ∨ p.shutterState k = .lowered ∨ p.shutterState k = .jammed ∨
              p.shutterState k = .lost
            (¬called → t.seq d = p.seq d ∧ ∀ k ∈ p.shuttersOf d, t.shutterRec k = p.shutterRec k) ∧
            (called → (t.seq d).cause = some .night ∧ (t.seq d).dropped = false ∧ (t.seq d).state ≠ .idle ∧
              ((∃ k ∈ p.groupOf d lowest, ¬settled k) →
                (t.seq d).state = .sequencing ∧ (t.seq d).group = lowest ∧
                (∀ k ∈ p.groupOf d lowest, (p.shutter k).night = true → ¬settled k →
                  (t.shutterRec k).map (fun y => y.move) = (p.shutterRec k).map (fun _ => some .full) ∧
                  ∃ o ∈ t.pendingOrder (.shutter k), o.order = .shutterFull) ∧
                ∀ k ∈ p.shuttersOf d, (p.shutter k).night = false ∨ (p.shutter k).group ≠ lowest →
                  t.shutterRec k = p.shutterRec k))) ∧
          (∀ k, 1 ≤ k → k ≤ 16 → bitOf st.posts (k - 1) = true → st.cue ≠ 0 → ∀ r ∈ p.post k, t.preempted p k r
            { content := .phrase st.cue, source := .step st.number, repeats := st.repeats, enqueued := p.cycle }) ∧
          (st.action = .opening → t.sequences = p.sequences.map (fun _ => {}) ∧
            ∀ k ∈ shutterNumbers, ∀ r, p.shutterRec k = some r → r.state ≠ .opened →
              ∃ o, t.pendingOrder (.shutter k) = some o ∧ o.order = .shutterRaise) ∧
          (st.action ≠ .opening → st.action ≠ .night → t.shutters = p.shutters ∧ t.sequences = p.sequences) ∧
          (st.cue = 0 → t.posts = p.posts) ∧
          (∀ k, 1 ≤ k → k ≤ 16 → bitOf st.posts (k - 1) = true → ∀ seconds, p.phrase st.cue = some seconds →
            ∀ r, p.post k = some r → r.state = .idle → r.current = none → r.queue = [] →
            t.post k = some { r with
              current := some { content := .phrase st.cue, source := .step st.number, repeats := st.repeats, enqueued := p.cycle }
              phase := .pending, lookup := some (.phrase seconds) }))

/-- Fire panel reports, the stream's timer and a silent fire panel station (R173 to R176): an active zone is noted once; out of Unloaded it
marks the compartments of its mask and starts their sequences, and enters Evacuation, which the chain follows (R81 to R88), which cancels
the calls and starts the stream. The stream's items pre-empt what plays (R149). A Presence report of a fire panel station ends its
silence only. A cleared zone is a falling edge of the fire zone condition (R184), told where nothing else was left to bring up to date.
The model's choices are that STREAM_TIMER_EXPIRED and FIRE_PANEL_LOST act ahead of the cycle start, and not before they are due (log 4),
that the Notices of the fire zone condition carry no details (log 16) and the sequence as it was before the increase (log 68), that a
returned item takes a new enqueue cycle (log 37), that pre-empt wanted goes with the item (log 64), and that a stopped play deadline and a
cancelled clearing timer are 0 (log 53). -/
def Obligations.FireReportsEvacuate : Prop :=
  ∀ (f : From) (z : Nat) (st : Station) (s : State),
    let p := s.part
    let q := p.setPanel f.source 0
    let fire := p.role f.source = some .firePanel
    let zone := 1 ≤ z ∧ z ≤ 16
    let bad := fun t : Part => t.steady = (p.count f.port .badForm).steady
    (Gives (.fireZoneAlarm f z) s fun t =>
      (¬fire ∨ ¬zone → bad t) ∧
      (fire → zone → z ∈ p.fire.zones → t.steady = q.steady) ∧
      (fire → zone → z ∉ p.fire.zones →
        (∀ y, y ∈ t.fire.zones ↔ y = z ∨ y ∈ p.fire.zones) ∧ t.line = p.line ∧
        (p.day.mode = .unloaded → ({ t with fire := { t.fire with zones := p.fire.zones } } : Part).steady = q.steady) ∧
        (p.day.mode ≠ .unloaded →
          { t.day with steps := p.day.steps } = { p.day with mode := .evacuation } ∧
          (∀ y, y ∈ t.fire.affected ↔ y ∈ p.fire.affected ∨ y ∈ p.zoneCompartments z) ∧
          (p.sequences.length = 8 → ∀ y ∈ p.zoneCompartments z, y ∉ p.fire.affected →
            (t.seq y).cause = some .evacuation ∧ (t.seq y).since = p.cycle ∧ (t.seq y).dropped = false ∧
            (t.seq y).timer = escapeHoldOf (p.table tShutters) * 50 ∧ (t.seq y).state ≠ .idle) ∧
          (∀ y, y ∉ p.zoneCompartments z ∨ y ∈ p.fire.affected → t.seq y = p.seq y)) ∧
        (p.day.mode = .evacuation → t.fire.cause = p.fire.cause ∧ t.fire.startCycle = p.fire.startCycle ∧ t.offShutters =
          ({ q with fire := { q.fire with zones := t.fire.zones, affected := t.fire.affected } } : Part).offShutters) ∧
        (p.day.mode ≠ .unloaded → p.day.mode ≠ .evacuation →
          t.fire.cause = some (.report z) ∧ t.fire.startCycle = some p.cycle ∧ t.fire.endCycle = none ∧ t.fire.streamOn = true ∧
          t.fire.nextIsPattern = true ∧ t.fire.streamTimer = p.evacPeriod * 50 ∧ t.calls = [] ∧ t.chainFollowsMode p))) ∧
    (fire → Gives (.presence f) s fun t => t.steady = q.steady) ∧
    (Gives (.fireZoneClear f z) s fun t =>
      (¬fire ∨ ¬zone → bad t) ∧
      (fire → zone → t.steady =
        ({ q with fire := { q.fire with zones := p.fire.zones.filter fun y => y ≠ z } } : Part).steady ∧
        (p.quiet → t.noticed p (if z ∈ p.fire.zones then p.letters .fireZone true [] else [])))) ∧
    (let due := p.fire.streamOn = true ∧ p.fire.streamTimer ≤ 1
     Gives .streamTimerExpired s fun t =>
      (¬due → t.steady = p.steady) ∧
      (due →
        t.fire.nextIsPattern = !p.fire.nextIsPattern ∧ t.fire.streamTimer = p.evacPeriod * 50 ∧ t.ahead = .stream :: p.ahead ∧
        ({ t with ahead := p.ahead, fire := { t.fire with nextIsPattern := p.fire.nextIsPattern, streamTimer := p.fire.streamTimer } }
          : Part).offPosts = p.offPosts ∧
        let it : Item := { content := if p.fire.nextIsPattern then .pattern p.evacCode else .phrase p.evacCue, source := .stream,
                           repeats := p.evacRepeats, enqueued := p.cycle }
        (∀ k ∈ p.enabledPosts, ∀ r ∈ p.post k, t.preempted p k r it) ∧
        ∀ k ∈ p.enabledPosts, ∀ r l o, p.post k = some r → r.state = .idle → r.current = none → r.queue = [] →
          p.lookUp it = some (l, o) →
          t.post k = some { r with current := some it, phase := .pending, lookup := some l } ∧
          t.pendingOrder (.post k) = some { record := .post k, target := (p.postEntry k).station, order := o, cls := .safety,
                                            placed := p.cycle })) ∧
    (let due := st ∈ p.panelStations ∧ p.panelSilence st = 49
     Gives (.firePanelLost st) s fun t =>
      (¬due → t.steady = p.steady) ∧
      (due → t.steady = ({ p.setPanel st 50 with
        faults := p.faults.enter { code := .firePanelLost, cycle := p.cycle, station := st } } : Part).steady))
end

