-- ==== Sys2Proof/Laws/Ops.lean ====
section
/-! SUPPORT. What the shared operations can do, each said once: notices, faults, replies and the settling after every command leave the
part steady, a part with nothing left to bring up to date sends nothing, a reply's data fit in it and read the whole record, and the lowest
of a set of zones. Proofs about a command cite these instead of unfolding the operations. -/

namespace Sys2Proof.Machine

/-! ## Notices, offers and faults -/

/-- The Agent Port takes the frame or counts it. -/
theorem Part.agentAccept_changes (p : Part) (f : Frame) (b : Builder) : ∃ a, (p.agentAccept f b).1 = { p with agent := a } := by
  unfold Part.agentAccept
  dsimp only
  split
  · exact ⟨_, rfl⟩
  · exact ⟨_, rfl⟩

/-- An offered frame changes the Agent Port alone. -/
theorem Part.offer_changes (p : Part) (f : Frame) (b : Builder) : ∃ a, p.offer f b = { p with agent := a } := by
  unfold Part.offer
  split
  · exact p.agentAccept_changes f b
  · exact ⟨_, rfl⟩

/-- A Notice changes the Agent Port and the notice losses alone. -/
theorem Part.sendNotice_changes (p : Part) (st : Station) (n : Nat) (c : Condition) (fall : Bool) (d : List Byte) :
    ∃ a x, p.sendNotice st n c fall d = { p with agent := a, notices := x } := by
  unfold Part.sendNotice
  simp only
  split
  · obtain ⟨a, h⟩ := p.agentAccept_changes
      (builtFrame p.own st .signal kindNotice false false (noticePayload c fall n p.cycle d)) .part
    exact ⟨a, p.notices, h⟩
  · exact ⟨p.agent, _, rfl⟩

/-- The Notice of one place changes the Agent Port and the notices alone. -/
theorem Part.noticeTo_changes (p : Part) (c : Condition) (fall : Bool) (d : List Byte) (i : Nat) :
    ∃ a x, p.noticeTo c fall d i = { p with agent := a, notices := x } := by
  unfold Part.noticeTo
  simp only
  split
  · obtain ⟨a, x, h⟩ := p.sendNotice_changes (p.place i).station (p.notices.sequences.getD (i - 1) 0) c fall d
    rw [h]
    exact ⟨a, _, rfl⟩
  · exact ⟨p.agent, p.notices, rfl⟩

/-- A raised condition changes the Agent Port and the notices alone (R184). -/
theorem Part.raiseEdge_changes (p : Part) (c : Condition) (fall : Bool) (d : List Byte) :
    ∃ a x, p.raiseEdge c fall d = { p with agent := a, notices := x } := by
  unfold Part.raiseEdge
  generalize placeNumbers = l
  induction l generalizing p with
  | nil => exact ⟨p.agent, p.notices, rfl⟩
  | cons i l ih =>
    obtain ⟨a, x, h⟩ := p.noticeTo_changes c fall d i
    obtain ⟨b, y, g⟩ := ih (p.noticeTo c fall d i)
    exact ⟨b, y, by rw [List.foldl_cons, g, h]⟩

/-- A raised condition changes the Agent Port and the notices alone (R184). -/
theorem Part.raise_changes (p : Part) (c : Condition) (d : List Byte) : ∃ a x, p.raise c d = { p with agent := a, notices := x } :=
  p.raiseEdge_changes c false d

/-- A fault entered changes the fault record by R185, and the Agent Port and the notices. -/
theorem Part.fault_changes (p : Part) (code : FaultCode) (st : Station) :
    ∃ a x, p.fault code st =
      { p with faults := p.faults.enter { code, cycle := p.cycle, station := st }, agent := a, notices := x } := by
  unfold Part.fault
  obtain ⟨a, x, h⟩ := Part.raise_changes { p with faults := p.faults.enter { code, cycle := p.cycle, station := st } } .fault
    (byteOf (faultNumber code) :: (pairOf p.cycle ++ [byteOf st]))
  exact ⟨a, x, h⟩

/-- A reply changes the Agent Port alone (R180). -/
theorem Part.replyTo_changes (p : Part) (c : Ctx) (code : Nat) (x : Answer) : ∃ a, p.replyTo c code x = { p with agent := a } := by
  unfold Part.replyTo
  split
  · exact p.offer_changes _ .part
  · exact ⟨p.agent, rfl⟩

/-- A Permit Answer changes what is on the lines and the two counters of the permit unit alone (R96, R99). -/
theorem Part.sendAnswer_changes (p : Part) (w : WaitingPoll) (stage : Stage) (x : Option Nat) (late full : Bool) :
    ∃ l m n, p.sendAnswer w stage x late full =
      { p with sent := l, chain := { p.chain with lateAnswers := m, pollOverruns := n } } := by
  unfold Part.sendAnswer
  split
  · exact ⟨_, _, _, rfl⟩
  · exact ⟨p.sent, p.chain.lateAnswers, p.chain.pollOverruns, rfl⟩

/-! ## Steadiness -/

theorem Part.raiseEdge_steady (p : Part) (c : Condition) (fall : Bool) (d : List Byte) : (p.raiseEdge c fall d).steady = p.steady := by
  obtain ⟨a, x, h⟩ := p.raiseEdge_changes c fall d
  rw [h]
  rfl

theorem Part.raise_steady (p : Part) (c : Condition) (d : List Byte) : (p.raise c d).steady = p.steady := p.raiseEdge_steady c false d

theorem Part.offer_steady (p : Part) (f : Frame) (b : Builder) : (p.offer f b).steady = p.steady := by
  obtain ⟨a, h⟩ := p.offer_changes f b
  rw [h]
  rfl

theorem Part.replyTo_steady (p : Part) (c : Ctx) (code : Nat) (x : Answer) : (p.replyTo c code x).steady = p.steady := by
  obtain ⟨a, h⟩ := p.replyTo_changes c code x
  rw [h]
  rfl

theorem Part.fault_steady (p : Part) (code : FaultCode) (st : Station) :
    (p.fault code st).steady = ({ p with faults := p.faults.enter { code, cycle := p.cycle, station := st } } : Part).steady := by
  obtain ⟨a, x, h⟩ := p.fault_changes code st
  rw [h]
  rfl

theorem Part.restage_steady (p : Part) : p.restage.steady = p.steady := rfl

theorem Part.sendAnswer_steady (p : Part) (w : WaitingPoll) (stage : Stage) (x : Option Nat) (late full : Bool) :
    (p.sendAnswer w stage x late full).steady = p.steady := by
  obtain ⟨l, m, n, h⟩ := p.sendAnswer_changes w stage x late full
  rw [h]
  rfl

theorem Part.answerWaiting_steady (p : Part) (late : Bool) : (p.answerWaiting late).steady = p.steady := by
  unfold Part.answerWaiting
  split
  · exact Part.sendAnswer_steady _ _ _ _ _ _
  · rfl

theorem Part.settleEvaluation_steady (p : Part) : p.settleEvaluation.steady = p.steady := by
  unfold Part.settleEvaluation
  simp only
  split <;> split
  · exact Part.answerWaiting_steady _ false
  · rfl
  · exact Part.answerWaiting_steady _ false
  · rfl

theorem Part.evaluateHold_steady (p : Part) : p.evaluateHold.steady = p.steady := by
  have h : ∀ e : HoldEntry, ∃ b t, p.evaluateHeld e = { e with eligible := b, target := t } := by
    intro e
    unfold Part.evaluateHeld
    dsimp only
    split <;> split <;> exact ⟨_, _, rfl⟩
  have g : ∀ e : HoldEntry, { p.evaluateHeld e with eligible := false, target := [] } = { e with eligible := false, target := [] } := by
    intro e
    obtain ⟨b, t, he⟩ := h e
    rw [he]
  unfold Part.steady Part.evaluateHold
  simp only [List.map_map, Function.comp_def, g]

/-- A gate's effective indication, which `steady` leaves aside, brought up to date. -/
theorem Part.gateNow_steady (p : Part) (g : Gate) : (p.gateNow g).steady = p.steady := by
  unfold Part.gateNow
  simp only
  split
  · rfl
  · rw [Part.raiseEdge_steady]
    cases g <;> rfl

/-- A list of optional slide records changed at one place by what a removed Close does is the same without its Closes. -/
theorem slides_withoutClose (l : List (Option SlideRecord)) (k : Nat) :
    (modifyAt l k (Option.map fun r => if r.move = some SlideMove.close then { r with move := none } else r)).map
      (Option.map SlideRecord.withoutClose) = l.map (Option.map SlideRecord.withoutClose) := by
  have h : ∀ r : SlideRecord, (if r.move = some SlideMove.close then { r with move := none } else r).withoutClose = r.withoutClose := by
    intro r
    unfold SlideRecord.withoutClose
    split <;> simp_all
  unfold modifyAt
  split
  · rfl
  · generalize k - 1 = i
    induction l generalizing i with
    | nil => simp
    | cons a l ih =>
      cases i with
      | zero => cases a <;> simp [h]
      | succ i => simpa using ih i

theorem Part.recheckClose_steady (p : Part) (k : Nat) : (p.recheckClose k).steady = p.steady := by
  unfold Part.recheckClose
  split
  · have h : (p.orders.filter fun o => !o.closes k).filter (fun o => o.order ≠ .slideClose) =
        p.orders.filter fun o => o.order ≠ .slideClose := by
      rw [List.filter_filter]
      congr 1
      funext o
      by_cases g : o.order = .slideClose <;> simp [PendingOrder.closes, g]
    unfold Part.steady Part.modSlide
    simp only [h, slides_withoutClose]
  · rfl

theorem Part.recheckCloses_steady (p : Part) : p.recheckCloses.steady = p.steady := by
  unfold Part.recheckCloses
  generalize planeNumbers = l
  induction l generalizing p with
  | nil => rfl
  | cons k l ih => rw [List.foldl_cons, ih, Part.recheckClose_steady]

/-- What follows every command leaves the part steady (log 21). -/
theorem Part.settle_steady (p : Part) : p.settle.steady = p.steady := by
  unfold Part.settle Part.gatesNow
  rw [Part.gateNow_steady, Part.gateNow_steady, Part.evaluateHold_steady, Part.settleEvaluation_steady, Part.recheckCloses_steady,
    Part.restage_steady]

/-- A command's effect is steady as far as its own operation is. -/
theorem Part.act_steady (p : Part) (f : Part → Part) : (p.act f).steady = (f { p with sent := [] }).steady :=
  Part.settle_steady _

/-- A command that is the effect of one operation on the part completes, and its part is what that operation leaves, settled. -/
theorem gives_of_run {i : Instr} {s : State} {post : Part → Prop} (f : Part → Part) (h : exec i s = s.run f)
    (hp : post (s.part.act f)) : Gives i s post := by
  unfold Gives
  rw [h]
  unfold State.run
  generalize s.part.act f = p at hp
  exact ⟨_, rfl, rfl, hp⟩

/-! ## Quiet parts: what is brought up to date sends nothing -/

/-- What a gate's effective indication is brought up to (R54). -/
def Part.gateDue (p : Part) (g : Gate) : Bool := p.gateClosed g && (p.gates.effective g || !p.receivedRemains (gateClass g))

/-- What a gate goes by: the gates, the store mode, the frames in the ports and the classes of the held frames (R53, R54). -/
theorem Part.gateDue_congr {p q : Part} (hg : q.gates = p.gates) (hd : q.day = p.day) (hN : q.portN = p.portN) (hS : q.portS = p.portS)
    (hW : q.portW = p.portW) (hh : ∀ c, (q.hold.any fun e => e.frame.cls = c) = p.hold.any fun e => e.frame.cls = c) (g : Gate) :
    q.gateDue g = p.gateDue g := by
  have hp : ∀ x, q.port x = p.port x := by intro x; cases x <;> assumption
  cases g <;> simp only [Part.gateDue, Part.gateClosed, Part.receivedRemains, hg, hd, hh, hp]

/-- A gate brought up to date changes the gates, the Agent Port and the notices alone, and stays as it is where its indication is due. -/
theorem Part.gateNow_changes (p : Part) (g : Gate) :
    (∃ a x, p.gateNow g = { p with gates := p.gates.setEffective g (p.gateDue g), agent := a, notices := x }) ∧
    (p.gateDue g = p.gates.effective g → p.gateNow g = p) := by
  refine ⟨?_, fun h => ?_⟩
  · unfold Part.gateNow
    simp only
    split
    · next h =>
      refine ⟨p.agent, p.notices, ?_⟩
      have : p.gates.setEffective g (p.gateDue g) = p.gates := by
        unfold Part.gateDue
        rw [h]
        cases g <;> rfl
      rw [this]
    · obtain ⟨a, x, h⟩ := Part.raiseEdge_changes { p with gates := p.gates.setEffective g (p.gateDue g) } .gateEffective
        (!p.gateDue g) [byteOf (clsCode (gateClass g))]
      exact ⟨a, x, h⟩
  · unfold Part.gateDue at h
    unfold Part.gateNow
    simp only [h, if_true]

/-- Pending Closes tested against their conditions change the orders and the slide records alone (R122). -/
theorem Part.recheckCloses_changes (p : Part) : ∃ o x, p.recheckCloses = { p with orders := o, slides := x } := by
  unfold Part.recheckCloses
  generalize planeNumbers = l
  induction l generalizing p with
  | nil => exact ⟨p.orders, p.slides, rfl⟩
  | cons k l ih =>
    have h : ∃ o x, p.recheckClose k = { p with orders := o, slides := x } := by
      unfold Part.recheckClose
      split
      · exact ⟨_, _, rfl⟩
      · exact ⟨p.orders, p.slides, rfl⟩
    obtain ⟨o, x, h⟩ := h
    obtain ⟨o', x', g⟩ := ih (p.recheckClose k)
    exact ⟨o', x', by rw [List.foldl_cons, g, h]⟩

/-- A waiting Poll answered changes the lines and the Chain Supervisor's fields alone (R98). -/
theorem Part.answerWaiting_changes (p : Part) (late : Bool) : ∃ l c, p.answerWaiting late = { p with sent := l, chain := c } := by
  unfold Part.answerWaiting
  split
  · next w h =>
    obtain ⟨l, m, n, h⟩ := Part.sendAnswer_changes { p with chain := { p.chain with waitingPoll := none } } w
      p.chain.staged.stage p.chain.staged.target late false
    exact ⟨l, _, h⟩
  · exact ⟨p.sent, p.chain, rfl⟩

/-- The end of an evaluation changes the lines and the Chain Supervisor's fields alone (R98). -/
theorem Part.settleEvaluation_changes (p : Part) : ∃ l c, p.settleEvaluation = { p with sent := l, chain := c } := by
  unfold Part.settleEvaluation
  simp only
  split <;> split
  · obtain ⟨l, c, e⟩ := Part.answerWaiting_changes { p with chain := { p.chain with evalPlan := none, evaluated := true } } false
    exact ⟨l, c, e⟩
  · exact ⟨p.sent, _, rfl⟩
  · exact p.answerWaiting_changes false
  · exact ⟨p.sent, p.chain, rfl⟩

/-- The evaluation of the Hold List changes the held frames' eligibility and target sets alone (R45). -/
theorem Part.evaluateHold_classes (p : Part) (c : Cls) :
    (p.evaluateHold.hold.any fun e => e.frame.cls = c) = p.hold.any fun e => e.frame.cls = c := by
  have h : ∀ e : HoldEntry, (p.evaluateHeld e).frame = e.frame := by
    intro e
    unfold Part.evaluateHeld
    dsimp only
    split <;> split <;> rfl
  simp only [Part.evaluateHold, List.any_map, Function.comp_def, h]

/-- What is brought up to date before the gates leaves alone what the gates go by, the Agent Port and the notices (log 21). -/
theorem Part.settle_gates (p : Part) :
    ∃ q : Part, p.settle = q.gatesNow ∧ q.gates = p.gates ∧ q.agent = p.agent ∧ q.notices = p.notices ∧
      ∀ g, q.gateDue g = p.gateDue g := by
  obtain ⟨o, x, h1⟩ := p.restage.recheckCloses_changes
  obtain ⟨l, c, h2⟩ := p.restage.recheckCloses.settleEvaluation_changes
  have h3 : p.restage.recheckCloses.settleEvaluation =
      { p with orders := o, slides := x, sent := l, chain := c } := by rw [h2, h1]; rfl
  refine ⟨_, rfl, ?_, ?_, ?_, ?_⟩
  all_goals rw [h3]
  · rfl
  · rfl
  · rfl
  · exact Part.gateDue_congr rfl rfl rfl rfl rfl (Part.evaluateHold_classes _)

/-- A part whose gates stand as they should is settled without a Notice (log 21). -/
theorem Part.settle_sends_none (p : Part) (h : ∀ g, p.gateDue g = p.gates.effective g) :
    p.settle.agent = p.agent ∧ p.settle.notices = p.notices := by
  obtain ⟨q, e, hg, ha, hn, hd⟩ := p.settle_gates
  have hq : ∀ g, q.gateDue g = q.gates.effective g := fun g => by rw [hd, h, hg]
  rw [e, Part.gatesNow, (q.gateNow_changes .signal).2 (hq _), (q.gateNow_changes .service).2 (hq _)]
  exact ⟨ha, hn⟩

/-- The gates of a part with nothing left to bring up to date stand as they should. -/
theorem Part.quiet_gates (p : Part) (h : p.quiet) (g : Gate) : p.gateDue g = p.gates.effective g := by
  obtain ⟨q, e, hg, -, -, hd⟩ := p.settle_gates
  obtain ⟨a, x, h1⟩ := (q.gateNow_changes .signal).1
  obtain ⟨b, y, h2⟩ := ((q.gateNow .signal).gateNow_changes .service).1
  have hp : p.gates = ((q.gateNow .signal).gateNow .service).gates := by
    have : q.gatesNow = p := e ▸ h
    exact congrArg Part.gates this.symm
  have hs : (q.gateNow .signal).gateDue .service = q.gateDue .service := by
    rw [h1]; rfl
  rw [h2, hs, h1] at hp
  rw [hp, ← hd]
  cases g <;> rfl

/-! ## Read data and zones -/

/-- Whole entries never fill more than the room. -/
theorem wholeFitting_length_le (room : Nat) (es : List (List Byte)) : (wholeFitting room es).length ≤ room := by
  induction es generalizing room with
  | nil => simp [wholeFitting]
  | cons e rest ih =>
    have := ih (room - e.length)
    unfold wholeFitting
    split
    · simp only [List.length_append]; omega
    · simp

/-- A reply's data are at most 21 bytes (R190). -/
theorem readData_length_le (es : List (List Byte)) : (readData es).length ≤ replyRoom := wholeFitting_length_le _ _

/-- Every entry of a record fits in a reply, so that a reply cuts none (R190). -/
theorem recordEntry_length_le (object j : Nat) (bytes : List Byte) : (recordEntry object j bytes).length ≤ replyRoom := by
  unfold recordEntry entryRoom replyRoom
  simp only [List.length_take]
  split <;> omega

/-- A record that a reply can hold is one entry, the record itself (R190): further entries are for longer ones alone (log 13). -/
theorem recordEntry_whole {object : Nat} {bytes : List Byte} (h : bytes.length ≤ entryRoom object) :
    recordEntry object 0 bytes = bytes ∧ ∀ j, recordEntry object (j + 1) bytes = [] := by
  refine ⟨by simp [recordEntry, List.take_of_length_le h], fun j => ?_⟩
  have : bytes.length ≤ entryRoom object * (j + 1) := h.trans (Nat.le_mul_of_pos_right _ j.succ_pos)
  simp [recordEntry, List.drop_eq_nil_of_le this]

/-- The entries of a record, one after another, are the record: none of its bytes is unread (log 13). -/
theorem recordEntry_append (object j : Nat) (bytes : List Byte) :
    recordEntry object j bytes ++ bytes.drop (entryRoom object * (j + 1)) = bytes.drop (entryRoom object * j) := by
  rw [recordEntry, Nat.mul_succ, ← List.drop_drop, List.take_append_drop]

/-- The minimum of a list and one more value is among them and below none. -/
theorem foldl_min_spec (zs : List Nat) (z : Nat) :
    zs.foldl min z ∈ z :: zs ∧ ∀ y ∈ z :: zs, zs.foldl min z ≤ y := by
  induction zs generalizing z with
  | nil => simp
  | cons w rest ih =>
    obtain ⟨hm, hl⟩ := ih (min z w)
    have h0 := hl _ List.mem_cons_self
    simp only [List.foldl_cons, List.mem_cons] at *
    refine ⟨?_, ?_⟩
    · rcases hm with h | h
      · rcases Nat.le_total z w with g | g
        · exact Or.inl (h.trans (Nat.min_eq_left g))
        · exact Or.inr (Or.inl (h.trans (Nat.min_eq_right g)))
      · exact Or.inr (Or.inr h)
    · rintro y (rfl | rfl | h)
      · omega
      · omega
      · exact hl y (Or.inr h)

/-- The lowest zone is one of the set, and none of the set is lower (R169). -/
theorem lowestZone_spec {zs : List Nat} {z : Nat} (h : lowestZone zs = some z) : z ∈ zs ∧ ∀ y ∈ zs, z ≤ y := by
  cases zs with
  | nil => cases h
  | cons w rest => cases h; exact foldl_min_spec rest w

end Sys2Proof.Machine
end

