-- ==== Sys2Proof/Laws/Exec.lean ====
section
/-! SUPPORT. Each arm of `exec` as an equation, and that every command is the effect of one operation on the part. -/

namespace Sys2Proof.Machine

theorem exec_powerUp (strap : Nat) (alarm : Bool) (s : State) : exec (.powerUp strap alarm) s = execPowerUp strap alarm s := rfl
theorem exec_cycleStart (alarm : Bool) (s : State) : exec (.cycleStart alarm) s = execCycleStart alarm s := rfl
theorem exec_alarmAsserted (s : State) : exec (.alarmAsserted) s = execAlarmAsserted s := rfl
theorem exec_alarmReleased (s : State) : exec (.alarmReleased) s = execAlarmReleased s := rfl
theorem exec_endOfPeriodicMark (s : State) : exec (.endOfPeriodicMark) s = execEndOfPeriodicMark s := rfl
theorem exec_burstFrameSent (port : PortId) (s : State) : exec (.burstFrameSent port) s = execBurstFrameSent port s := rfl
theorem exec_frameReceived (port : PortId) (bytes : List Byte) (s : State) : exec (.frameReceived port bytes) s = execFrameReceived port bytes s := rfl
theorem exec_outputGrant (port : PortId) (s : State) : exec (.outputGrant port) s = execOutputGrant port s := rfl
theorem exec_agentPortSlotTaken (s : State) : exec (.agentPortSlotTaken) s = execAgentPortSlotTaken s := rfl
theorem exec_frameAged (place : FramePlace) (s : State) : exec (.frameAged place) s = execFrameAged place s := rfl
theorem exec_holdAgeExpired (i : Nat) (s : State) : exec (.holdAgeExpired i) s = execHoldAgeExpired i s := rfl
theorem exec_gateEffective (gate : Gate) (s : State) : exec (.gateEffective gate) s = execGateEffective gate s := rfl
theorem exec_trainingTimeout (port : PortId) (s : State) : exec (.trainingTimeout port) s = execTrainingTimeout port s := rfl
theorem exec_portSilent (port : PortId) (s : State) : exec (.portSilent port) s = execPortSilent port s := rfl
theorem exec_overcurrent (s : State) : exec (.overcurrent) s = execOvercurrent s := rfl
theorem exec_cooldownExpired (s : State) : exec (.cooldownExpired) s = execCooldownExpired s := rfl
theorem exec_claim (c : Ctx) (s : State) : exec (.claim c) s = execClaim c s := rfl
theorem exec_release (c : Ctx) (s : State) : exec (.release c) s = execRelease c s := rfl
theorem exec_force (c : Ctx) (s : State) : exec (.force c) s = execForce c s := rfl
theorem exec_read (c : Ctx) (object first : Nat) (s : State) : exec (.read c object first) s = execRead c object first s := rfl
theorem exec_load (c : Ctx) (table first : Nat) (data : List Byte) (s : State) : exec (.load c table first data) s = execLoad c table first data s := rfl
theorem exec_commit (c : Ctx) (table : Nat) (s : State) : exec (.commit c table) s = execCommit c table s := rfl
theorem exec_beginService (c : Ctx) (s : State) : exec (.beginService c) s = execBeginService c s := rfl
theorem exec_setClock (c : Ctx) (second : Nat) (s : State) : exec (.setClock c second) s = execSetClock c second s := rfl
theorem exec_portEnable (c : Ctx) (port : Nat) (s : State) : exec (.portEnable c port) s = execPortEnable c port s := rfl
theorem exec_portDisable (c : Ctx) (port : Nat) (s : State) : exec (.portDisable c port) s = execPortDisable c port s := rfl
theorem exec_gateSet (c : Ctx) (cls : Nat) (s : State) : exec (.gateSet c cls) s = execGateSet c cls s := rfl
theorem exec_gateClear (c : Ctx) (cls : Nat) (s : State) : exec (.gateClear c cls) s = execGateClear c cls s := rfl
theorem exec_start (c : Ctx) (s : State) : exec (.start c) s = execStart c s := rfl
theorem exec_stop (c : Ctx) (s : State) : exec (.stop c) s = execStop c s := rfl
theorem exec_clearTrip (c : Ctx) (s : State) : exec (.clearTrip c) s = execClearTrip c s := rfl
theorem exec_openSlides (c : Ctx) (s : State) : exec (.openSlides c) s = execOpenSlides c s := rfl
theorem exec_restore (c : Ctx) (s : State) : exec (.restore c) s = execRestore c s := rfl
theorem exec_clearFault (c : Ctx) (s : State) : exec (.clearFault c) s = execClearFault c s := rfl
theorem exec_clearCounters (c : Ctx) (s : State) : exec (.clearCounters c) s = execClearCounters c s := rfl
theorem exec_testPlay (c : Ctx) (post kind code repeats : Nat) (s : State) : exec (.testPlay c post kind code repeats) s = execTestPlay c post kind code repeats s := rfl
theorem exec_reset (c : Ctx) (s : State) : exec (.reset c) s = execReset c s := rfl
theorem exec_resetFrame (f : From) (s : State) : exec (.resetFrame f) s = execResetFrame f s := rfl
theorem exec_subscribe (c : Ctx) (conditions falling : Nat) (s : State) : exec (.subscribe c conditions falling) s = execSubscribe c conditions falling s := rfl
theorem exec_unsubscribe (c : Ctx) (s : State) : exec (.unsubscribe c) s = execUnsubscribe c s := rfl
theorem exec_unknownOrder (c : Ctx) (code : Nat) (args : List Byte) (s : State) : exec (.unknownOrder c code args) s = execUnknownOrder c code args s := rfl
theorem exec_chainPosition (f : From) (position speed : Nat) (state : DriveState) (edge : Byte) (s : State) : exec (.chainPosition f position speed state edge) s = execChainPosition f position speed state edge s := rfl
theorem exec_driveState (f : From) (state : DriveState) (s : State) : exec (.driveState f state) s = execDriveState f state s := rfl
theorem exec_landingEdgeTrip (f : From) (s : State) : exec (.landingEdgeTrip f) s = execLandingEdgeTrip f s := rfl
theorem exec_chainRecordStale (s : State) : exec (.chainRecordStale) s = execChainRecordStale s := rfl
theorem exec_clearingTimerExpired (s : State) : exec (.clearingTimerExpired) s = execClearingTimerExpired s := rfl
theorem exec_planCompleted (s : State) : exec (.planCompleted) s = execPlanCompleted s := rfl
theorem exec_poll (f : From) (cycle : Nat) (s : State) : exec (.poll f cycle) s = execPoll f cycle s := rfl
theorem exec_channelGrant (s : State) : exec (.channelGrant) s = execChannelGrant s := rfl
theorem exec_retryRebuild (channel : Nat) (s : State) : exec (.retryRebuild channel) s = execRetryRebuild channel s := rfl
theorem exec_confirm (f : From) (toggle : Bool) (result : Nat) (s : State) : exec (.confirm f toggle result) s = execConfirm f toggle result s := rfl
theorem exec_replyWindowExpired (channel : Nat) (s : State) : exec (.replyWindowExpired channel) s = execReplyWindowExpired channel s := rfl
theorem exec_slidePosition (f : From) (pos : SlidePos) (s : State) : exec (.slidePosition f pos) s = execSlidePosition f pos s := rfl
theorem exec_slideTravelTimeout (plane : Nat) (s : State) : exec (.slideTravelTimeout plane) s = execSlideTravelTimeout plane s := rfl
theorem exec_slideStationLost (plane : Nat) (s : State) : exec (.slideStationLost plane) s = execSlideStationLost plane s := rfl
theorem exec_shutterPosition (f : From) (pos : ShutterPos) (s : State) : exec (.shutterPosition f pos) s = execShutterPosition f pos s := rfl
theorem exec_shutterTravelTimeout (entry : Nat) (s : State) : exec (.shutterTravelTimeout entry) s = execShutterTravelTimeout entry s := rfl
theorem exec_shutterStationLost (entry : Nat) (s : State) : exec (.shutterStationLost entry) s = execShutterStationLost entry s := rfl
theorem exec_escapeHoldExpired (compartment : Nat) (s : State) : exec (.escapeHoldExpired compartment) s = execEscapeHoldExpired compartment s := rfl
theorem exec_dropNow (f : From) (mask : Byte) (s : State) : exec (.dropNow f mask) s = execDropNow f mask s := rfl
theorem exec_postReady (f : From) (s : State) : exec (.postReady f) s = execPostReady f s := rfl
theorem exec_postDone (f : From) (completed : Nat) (s : State) : exec (.postDone f completed) s = execPostDone f completed s := rfl
theorem exec_postHalted (f : From) (completed : Nat) (s : State) : exec (.postHalted f completed) s = execPostHalted f completed s := rfl
theorem exec_presence (f : From) (s : State) : exec (.presence f) s = execPresence f s := rfl
theorem exec_playDeadlineExpired (post : Nat) (s : State) : exec (.playDeadlineExpired post) s = execPlayDeadlineExpired post s := rfl
theorem exec_postStationLost (post : Nat) (s : State) : exec (.postStationLost post) s = execPostStationLost post s := rfl
theorem exec_call (f : From) (cls : Cls) (toggle : Bool) (code : Nat) (posts : BitVec 16) (rounds interval : Nat) (s : State) : exec (.call f cls toggle code posts rounds interval) s = execCall f cls toggle code posts rounds interval s := rfl
theorem exec_roundDue (id : Nat) (s : State) : exec (.roundDue id) s = execRoundDue id s := rfl
theorem exec_acknowledge (f : From) (form id : Nat) (s : State) : exec (.acknowledge f form id) s = execAcknowledge f form id s := rfl
theorem exec_clockAdvance (s : State) : exec (.clockAdvance) s = execClockAdvance s := rfl
theorem exec_fireZoneAlarm (f : From) (zone : Nat) (s : State) : exec (.fireZoneAlarm f zone) s = execFireZoneAlarm f zone s := rfl
theorem exec_fireZoneClear (f : From) (zone : Nat) (s : State) : exec (.fireZoneClear f zone) s = execFireZoneClear f zone s := rfl
theorem exec_streamTimerExpired (s : State) : exec (.streamTimerExpired) s = execStreamTimerExpired s := rfl
theorem exec_firePanelLost (station : Station) (s : State) : exec (.firePanelLost station) s = execFirePanelLost station s := rfl

/-- Every command is the effect of one operation on the part, settled: the queue of commands is not touched. -/
theorem exec_acts (i : Instr) (s : State) : ∃ f, exec i s = s.run f := by
  cases i with
  | powerUp strap alarm => exact ⟨_, exec_powerUp strap alarm s⟩
  | cycleStart alarm => exact ⟨_, exec_cycleStart alarm s⟩
  | alarmAsserted => exact ⟨_, exec_alarmAsserted s⟩
  | alarmReleased => exact ⟨_, exec_alarmReleased s⟩
  | endOfPeriodicMark => exact ⟨_, exec_endOfPeriodicMark s⟩
  | burstFrameSent port => exact ⟨_, exec_burstFrameSent port s⟩
  | frameReceived port bytes => exact ⟨_, exec_frameReceived port bytes s⟩
  | outputGrant port => exact ⟨_, exec_outputGrant port s⟩
  | agentPortSlotTaken => exact ⟨_, exec_agentPortSlotTaken s⟩
  | frameAged place => exact ⟨_, exec_frameAged place s⟩
  | holdAgeExpired i => exact ⟨_, exec_holdAgeExpired i s⟩
  | gateEffective gate => exact ⟨_, exec_gateEffective gate s⟩
  | trainingTimeout port => exact ⟨_, exec_trainingTimeout port s⟩
  | portSilent port => exact ⟨_, exec_portSilent port s⟩
  | overcurrent => exact ⟨_, exec_overcurrent s⟩
  | cooldownExpired => exact ⟨_, exec_cooldownExpired s⟩
  | claim c => exact ⟨_, exec_claim c s⟩
  | release c => exact ⟨_, exec_release c s⟩
  | force c => exact ⟨_, exec_force c s⟩
  | read c object first => exact ⟨_, exec_read c object first s⟩
  | load c table first data => exact ⟨_, exec_load c table first data s⟩
  | commit c table => exact ⟨_, exec_commit c table s⟩
  | beginService c => exact ⟨_, exec_beginService c s⟩
  | setClock c second => exact ⟨_, exec_setClock c second s⟩
  | portEnable c port => exact ⟨_, exec_portEnable c port s⟩
  | portDisable c port => exact ⟨_, exec_portDisable c port s⟩
  | gateSet c cls => exact ⟨_, exec_gateSet c cls s⟩
  | gateClear c cls => exact ⟨_, exec_gateClear c cls s⟩
  | start c => exact ⟨_, exec_start c s⟩
  | stop c => exact ⟨_, exec_stop c s⟩
  | clearTrip c => exact ⟨_, exec_clearTrip c s⟩
  | openSlides c => exact ⟨_, exec_openSlides c s⟩
  | restore c => exact ⟨_, exec_restore c s⟩
  | clearFault c => exact ⟨_, exec_clearFault c s⟩
  | clearCounters c => exact ⟨_, exec_clearCounters c s⟩
  | testPlay c post kind code repeats => exact ⟨_, exec_testPlay c post kind code repeats s⟩
  | reset c => exact ⟨_, exec_reset c s⟩
  | resetFrame f => exact ⟨_, exec_resetFrame f s⟩
  | subscribe c conditions falling => exact ⟨_, exec_subscribe c conditions falling s⟩
  | unsubscribe c => exact ⟨_, exec_unsubscribe c s⟩
  | unknownOrder c code args => exact ⟨_, exec_unknownOrder c code args s⟩
  | chainPosition f position speed state edge => exact ⟨_, exec_chainPosition f position speed state edge s⟩
  | driveState f state => exact ⟨_, exec_driveState f state s⟩
  | landingEdgeTrip f => exact ⟨_, exec_landingEdgeTrip f s⟩
  | chainRecordStale => exact ⟨_, exec_chainRecordStale s⟩
  | clearingTimerExpired => exact ⟨_, exec_clearingTimerExpired s⟩
  | planCompleted => exact ⟨_, exec_planCompleted s⟩
  | poll f cycle => exact ⟨_, exec_poll f cycle s⟩
  | channelGrant => exact ⟨_, exec_channelGrant s⟩
  | retryRebuild channel => exact ⟨_, exec_retryRebuild channel s⟩
  | confirm f toggle result => exact ⟨_, exec_confirm f toggle result s⟩
  | replyWindowExpired channel => exact ⟨_, exec_replyWindowExpired channel s⟩
  | slidePosition f pos => exact ⟨_, exec_slidePosition f pos s⟩
  | slideTravelTimeout plane => exact ⟨_, exec_slideTravelTimeout plane s⟩
  | slideStationLost plane => exact ⟨_, exec_slideStationLost plane s⟩
  | shutterPosition f pos => exact ⟨_, exec_shutterPosition f pos s⟩
  | shutterTravelTimeout entry => exact ⟨_, exec_shutterTravelTimeout entry s⟩
  | shutterStationLost entry => exact ⟨_, exec_shutterStationLost entry s⟩
  | escapeHoldExpired compartment => exact ⟨_, exec_escapeHoldExpired compartment s⟩
  | dropNow f mask => exact ⟨_, exec_dropNow f mask s⟩
  | postReady f => exact ⟨_, exec_postReady f s⟩
  | postDone f completed => exact ⟨_, exec_postDone f completed s⟩
  | postHalted f completed => exact ⟨_, exec_postHalted f completed s⟩
  | presence f => exact ⟨_, exec_presence f s⟩
  | playDeadlineExpired post => exact ⟨_, exec_playDeadlineExpired post s⟩
  | postStationLost post => exact ⟨_, exec_postStationLost post s⟩
  | call f cls toggle code posts rounds interval => exact ⟨_, exec_call f cls toggle code posts rounds interval s⟩
  | roundDue id => exact ⟨_, exec_roundDue id s⟩
  | acknowledge f form id => exact ⟨_, exec_acknowledge f form id s⟩
  | clockAdvance => exact ⟨_, exec_clockAdvance s⟩
  | fireZoneAlarm f zone => exact ⟨_, exec_fireZoneAlarm f zone s⟩
  | fireZoneClear f zone => exact ⟨_, exec_fireZoneClear f zone s⟩
  | streamTimerExpired => exact ⟨_, exec_streamTimerExpired s⟩
  | firePanelLost station => exact ⟨_, exec_firePanelLost station s⟩

/-- Every command completes. -/
theorem exec_completes (i : Instr) (s : State) : ∃ f : Part → Part, exec i s = .next { s with part := s.part.act f } :=
  exec_acts i s

end Sys2Proof.Machine
end

