-- ==== Sys2Proof/Laws/State.lean ====
section
/-! SUPPORT. What each record update of the part leaves as it was, one lemma for each field, so that no proof unfolds an update. -/

namespace Sys2Proof.Machine

/-! ## `Part.modChannel` -/

@[simp] theorem Part.modChannel_own (p : Part) (c : Nat) (f : Channel → Channel) : (p.modChannel c f).own = p.own := rfl
@[simp] theorem Part.modChannel_beforeFirst (p : Part) (c : Nat) (f : Channel → Channel) : (p.modChannel c f).beforeFirst = p.beforeFirst := rfl
@[simp] theorem Part.modChannel_cycle (p : Part) (c : Nat) (f : Channel → Channel) : (p.modChannel c f).cycle = p.cycle := rfl
@[simp] theorem Part.modChannel_periodic (p : Part) (c : Nat) (f : Channel → Channel) : (p.modChannel c f).periodic = p.periodic := rfl
@[simp] theorem Part.modChannel_markCode (p : Part) (c : Nat) (f : Channel → Channel) : (p.modChannel c f).markCode = p.markCode := rfl
@[simp] theorem Part.modChannel_sent (p : Part) (c : Nat) (f : Channel → Channel) : (p.modChannel c f).sent = p.sent := rfl
@[simp] theorem Part.modChannel_portN (p : Part) (c : Nat) (f : Channel → Channel) : (p.modChannel c f).portN = p.portN := rfl
@[simp] theorem Part.modChannel_portS (p : Part) (c : Nat) (f : Channel → Channel) : (p.modChannel c f).portS = p.portS := rfl
@[simp] theorem Part.modChannel_portW (p : Part) (c : Nat) (f : Channel → Channel) : (p.modChannel c f).portW = p.portW := rfl
@[simp] theorem Part.modChannel_agent (p : Part) (c : Nat) (f : Channel → Channel) : (p.modChannel c f).agent = p.agent := rfl
@[simp] theorem Part.modChannel_cooldown (p : Part) (c : Nat) (f : Channel → Channel) : (p.modChannel c f).cooldown = p.cooldown := rfl
@[simp] theorem Part.modChannel_hold (p : Part) (c : Nat) (f : Channel → Channel) : (p.modChannel c f).hold = p.hold := rfl
@[simp] theorem Part.modChannel_gates (p : Part) (c : Nat) (f : Channel → Channel) : (p.modChannel c f).gates = p.gates := rfl
@[simp] theorem Part.modChannel_orders (p : Part) (c : Nat) (f : Channel → Channel) : (p.modChannel c f).orders = p.orders := rfl
@[simp] theorem Part.modChannel_toggles (p : Part) (c : Nat) (f : Channel → Channel) : (p.modChannel c f).toggles = p.toggles := rfl
@[simp] theorem Part.modChannel_stale (p : Part) (c : Nat) (f : Channel → Channel) : (p.modChannel c f).stale = p.stale := rfl
@[simp] theorem Part.modChannel_builds (p : Part) (c : Nat) (f : Channel → Channel) : (p.modChannel c f).builds = p.builds := rfl
@[simp] theorem Part.modChannel_moves (p : Part) (c : Nat) (f : Channel → Channel) : (p.modChannel c f).moves = p.moves := rfl
@[simp] theorem Part.modChannel_chain (p : Part) (c : Nat) (f : Channel → Channel) : (p.modChannel c f).chain = p.chain := rfl
@[simp] theorem Part.modChannel_park (p : Part) (c : Nat) (f : Channel → Channel) : (p.modChannel c f).park = p.park := rfl
@[simp] theorem Part.modChannel_slides (p : Part) (c : Nat) (f : Channel → Channel) : (p.modChannel c f).slides = p.slides := rfl
@[simp] theorem Part.modChannel_withheld (p : Part) (c : Nat) (f : Channel → Channel) : (p.modChannel c f).withheld = p.withheld := rfl
@[simp] theorem Part.modChannel_shutters (p : Part) (c : Nat) (f : Channel → Channel) : (p.modChannel c f).shutters = p.shutters := rfl
@[simp] theorem Part.modChannel_sequences (p : Part) (c : Nat) (f : Channel → Channel) : (p.modChannel c f).sequences = p.sequences := rfl
@[simp] theorem Part.modChannel_posts (p : Part) (c : Nat) (f : Channel → Channel) : (p.modChannel c f).posts = p.posts := rfl
@[simp] theorem Part.modChannel_postCounts (p : Part) (c : Nat) (f : Channel → Channel) : (p.modChannel c f).postCounts = p.postCounts := rfl
@[simp] theorem Part.modChannel_calls (p : Part) (c : Nat) (f : Channel → Channel) : (p.modChannel c f).calls = p.calls := rfl
@[simp] theorem Part.modChannel_lastCall (p : Part) (c : Nat) (f : Channel → Channel) : (p.modChannel c f).lastCall = p.lastCall := rfl
@[simp] theorem Part.modChannel_unmatched (p : Part) (c : Nat) (f : Channel → Channel) : (p.modChannel c f).unmatched = p.unmatched := rfl
@[simp] theorem Part.modChannel_day (p : Part) (c : Nat) (f : Channel → Channel) : (p.modChannel c f).day = p.day := rfl
@[simp] theorem Part.modChannel_fire (p : Part) (c : Nat) (f : Channel → Channel) : (p.modChannel c f).fire = p.fire := rfl
@[simp] theorem Part.modChannel_claim (p : Part) (c : Nat) (f : Channel → Channel) : (p.modChannel c f).claim = p.claim := rfl
@[simp] theorem Part.modChannel_tables (p : Part) (c : Nat) (f : Channel → Channel) : (p.modChannel c f).tables = p.tables := rfl
@[simp] theorem Part.modChannel_copies (p : Part) (c : Nat) (f : Channel → Channel) : (p.modChannel c f).copies = p.copies := rfl
@[simp] theorem Part.modChannel_committed (p : Part) (c : Nat) (f : Channel → Channel) : (p.modChannel c f).committed = p.committed := rfl
@[simp] theorem Part.modChannel_notices (p : Part) (c : Nat) (f : Channel → Channel) : (p.modChannel c f).notices = p.notices := rfl
@[simp] theorem Part.modChannel_faults (p : Part) (c : Nat) (f : Channel → Channel) : (p.modChannel c f).faults = p.faults := rfl
@[simp] theorem Part.modChannel_ahead (p : Part) (c : Nat) (f : Channel → Channel) : (p.modChannel c f).ahead = p.ahead := rfl

/-! ## `Part.modSlide` -/

@[simp] theorem Part.modSlide_own (p : Part) (k : Nat) (f : SlideRecord → SlideRecord) : (p.modSlide k f).own = p.own := rfl
@[simp] theorem Part.modSlide_beforeFirst (p : Part) (k : Nat) (f : SlideRecord → SlideRecord) : (p.modSlide k f).beforeFirst = p.beforeFirst := rfl
@[simp] theorem Part.modSlide_cycle (p : Part) (k : Nat) (f : SlideRecord → SlideRecord) : (p.modSlide k f).cycle = p.cycle := rfl
@[simp] theorem Part.modSlide_periodic (p : Part) (k : Nat) (f : SlideRecord → SlideRecord) : (p.modSlide k f).periodic = p.periodic := rfl
@[simp] theorem Part.modSlide_markCode (p : Part) (k : Nat) (f : SlideRecord → SlideRecord) : (p.modSlide k f).markCode = p.markCode := rfl
@[simp] theorem Part.modSlide_sent (p : Part) (k : Nat) (f : SlideRecord → SlideRecord) : (p.modSlide k f).sent = p.sent := rfl
@[simp] theorem Part.modSlide_portN (p : Part) (k : Nat) (f : SlideRecord → SlideRecord) : (p.modSlide k f).portN = p.portN := rfl
@[simp] theorem Part.modSlide_portS (p : Part) (k : Nat) (f : SlideRecord → SlideRecord) : (p.modSlide k f).portS = p.portS := rfl
@[simp] theorem Part.modSlide_portW (p : Part) (k : Nat) (f : SlideRecord → SlideRecord) : (p.modSlide k f).portW = p.portW := rfl
@[simp] theorem Part.modSlide_agent (p : Part) (k : Nat) (f : SlideRecord → SlideRecord) : (p.modSlide k f).agent = p.agent := rfl
@[simp] theorem Part.modSlide_cooldown (p : Part) (k : Nat) (f : SlideRecord → SlideRecord) : (p.modSlide k f).cooldown = p.cooldown := rfl
@[simp] theorem Part.modSlide_hold (p : Part) (k : Nat) (f : SlideRecord → SlideRecord) : (p.modSlide k f).hold = p.hold := rfl
@[simp] theorem Part.modSlide_gates (p : Part) (k : Nat) (f : SlideRecord → SlideRecord) : (p.modSlide k f).gates = p.gates := rfl
@[simp] theorem Part.modSlide_orders (p : Part) (k : Nat) (f : SlideRecord → SlideRecord) : (p.modSlide k f).orders = p.orders := rfl
@[simp] theorem Part.modSlide_channels (p : Part) (k : Nat) (f : SlideRecord → SlideRecord) : (p.modSlide k f).channels = p.channels := rfl
@[simp] theorem Part.modSlide_toggles (p : Part) (k : Nat) (f : SlideRecord → SlideRecord) : (p.modSlide k f).toggles = p.toggles := rfl
@[simp] theorem Part.modSlide_stale (p : Part) (k : Nat) (f : SlideRecord → SlideRecord) : (p.modSlide k f).stale = p.stale := rfl
@[simp] theorem Part.modSlide_builds (p : Part) (k : Nat) (f : SlideRecord → SlideRecord) : (p.modSlide k f).builds = p.builds := rfl
@[simp] theorem Part.modSlide_moves (p : Part) (k : Nat) (f : SlideRecord → SlideRecord) : (p.modSlide k f).moves = p.moves := rfl
@[simp] theorem Part.modSlide_chain (p : Part) (k : Nat) (f : SlideRecord → SlideRecord) : (p.modSlide k f).chain = p.chain := rfl
@[simp] theorem Part.modSlide_park (p : Part) (k : Nat) (f : SlideRecord → SlideRecord) : (p.modSlide k f).park = p.park := rfl
@[simp] theorem Part.modSlide_withheld (p : Part) (k : Nat) (f : SlideRecord → SlideRecord) : (p.modSlide k f).withheld = p.withheld := rfl
@[simp] theorem Part.modSlide_shutters (p : Part) (k : Nat) (f : SlideRecord → SlideRecord) : (p.modSlide k f).shutters = p.shutters := rfl
@[simp] theorem Part.modSlide_sequences (p : Part) (k : Nat) (f : SlideRecord → SlideRecord) : (p.modSlide k f).sequences = p.sequences := rfl
@[simp] theorem Part.modSlide_posts (p : Part) (k : Nat) (f : SlideRecord → SlideRecord) : (p.modSlide k f).posts = p.posts := rfl
@[simp] theorem Part.modSlide_postCounts (p : Part) (k : Nat) (f : SlideRecord → SlideRecord) : (p.modSlide k f).postCounts = p.postCounts := rfl
@[simp] theorem Part.modSlide_calls (p : Part) (k : Nat) (f : SlideRecord → SlideRecord) : (p.modSlide k f).calls = p.calls := rfl
@[simp] theorem Part.modSlide_lastCall (p : Part) (k : Nat) (f : SlideRecord → SlideRecord) : (p.modSlide k f).lastCall = p.lastCall := rfl
@[simp] theorem Part.modSlide_unmatched (p : Part) (k : Nat) (f : SlideRecord → SlideRecord) : (p.modSlide k f).unmatched = p.unmatched := rfl
@[simp] theorem Part.modSlide_day (p : Part) (k : Nat) (f : SlideRecord → SlideRecord) : (p.modSlide k f).day = p.day := rfl
@[simp] theorem Part.modSlide_fire (p : Part) (k : Nat) (f : SlideRecord → SlideRecord) : (p.modSlide k f).fire = p.fire := rfl
@[simp] theorem Part.modSlide_claim (p : Part) (k : Nat) (f : SlideRecord → SlideRecord) : (p.modSlide k f).claim = p.claim := rfl
@[simp] theorem Part.modSlide_tables (p : Part) (k : Nat) (f : SlideRecord → SlideRecord) : (p.modSlide k f).tables = p.tables := rfl
@[simp] theorem Part.modSlide_copies (p : Part) (k : Nat) (f : SlideRecord → SlideRecord) : (p.modSlide k f).copies = p.copies := rfl
@[simp] theorem Part.modSlide_committed (p : Part) (k : Nat) (f : SlideRecord → SlideRecord) : (p.modSlide k f).committed = p.committed := rfl
@[simp] theorem Part.modSlide_notices (p : Part) (k : Nat) (f : SlideRecord → SlideRecord) : (p.modSlide k f).notices = p.notices := rfl
@[simp] theorem Part.modSlide_faults (p : Part) (k : Nat) (f : SlideRecord → SlideRecord) : (p.modSlide k f).faults = p.faults := rfl
@[simp] theorem Part.modSlide_ahead (p : Part) (k : Nat) (f : SlideRecord → SlideRecord) : (p.modSlide k f).ahead = p.ahead := rfl

/-! ## `Part.modShutter` -/

@[simp] theorem Part.modShutter_own (p : Part) (k : Nat) (f : ShutterRecord → ShutterRecord) : (p.modShutter k f).own = p.own := rfl
@[simp] theorem Part.modShutter_beforeFirst (p : Part) (k : Nat) (f : ShutterRecord → ShutterRecord) : (p.modShutter k f).beforeFirst = p.beforeFirst := rfl
@[simp] theorem Part.modShutter_cycle (p : Part) (k : Nat) (f : ShutterRecord → ShutterRecord) : (p.modShutter k f).cycle = p.cycle := rfl
@[simp] theorem Part.modShutter_periodic (p : Part) (k : Nat) (f : ShutterRecord → ShutterRecord) : (p.modShutter k f).periodic = p.periodic := rfl
@[simp] theorem Part.modShutter_markCode (p : Part) (k : Nat) (f : ShutterRecord → ShutterRecord) : (p.modShutter k f).markCode = p.markCode := rfl
@[simp] theorem Part.modShutter_sent (p : Part) (k : Nat) (f : ShutterRecord → ShutterRecord) : (p.modShutter k f).sent = p.sent := rfl
@[simp] theorem Part.modShutter_portN (p : Part) (k : Nat) (f : ShutterRecord → ShutterRecord) : (p.modShutter k f).portN = p.portN := rfl
@[simp] theorem Part.modShutter_portS (p : Part) (k : Nat) (f : ShutterRecord → ShutterRecord) : (p.modShutter k f).portS = p.portS := rfl
@[simp] theorem Part.modShutter_portW (p : Part) (k : Nat) (f : ShutterRecord → ShutterRecord) : (p.modShutter k f).portW = p.portW := rfl
@[simp] theorem Part.modShutter_agent (p : Part) (k : Nat) (f : ShutterRecord → ShutterRecord) : (p.modShutter k f).agent = p.agent := rfl
@[simp] theorem Part.modShutter_cooldown (p : Part) (k : Nat) (f : ShutterRecord → ShutterRecord) : (p.modShutter k f).cooldown = p.cooldown := rfl
@[simp] theorem Part.modShutter_hold (p : Part) (k : Nat) (f : ShutterRecord → ShutterRecord) : (p.modShutter k f).hold = p.hold := rfl
@[simp] theorem Part.modShutter_gates (p : Part) (k : Nat) (f : ShutterRecord → ShutterRecord) : (p.modShutter k f).gates = p.gates := rfl
@[simp] theorem Part.modShutter_orders (p : Part) (k : Nat) (f : ShutterRecord → ShutterRecord) : (p.modShutter k f).orders = p.orders := rfl
@[simp] theorem Part.modShutter_channels (p : Part) (k : Nat) (f : ShutterRecord → ShutterRecord) : (p.modShutter k f).channels = p.channels := rfl
@[simp] theorem Part.modShutter_toggles (p : Part) (k : Nat) (f : ShutterRecord → ShutterRecord) : (p.modShutter k f).toggles = p.toggles := rfl
@[simp] theorem Part.modShutter_stale (p : Part) (k : Nat) (f : ShutterRecord → ShutterRecord) : (p.modShutter k f).stale = p.stale := rfl
@[simp] theorem Part.modShutter_builds (p : Part) (k : Nat) (f : ShutterRecord → ShutterRecord) : (p.modShutter k f).builds = p.builds := rfl
@[simp] theorem Part.modShutter_moves (p : Part) (k : Nat) (f : ShutterRecord → ShutterRecord) : (p.modShutter k f).moves = p.moves := rfl
@[simp] theorem Part.modShutter_chain (p : Part) (k : Nat) (f : ShutterRecord → ShutterRecord) : (p.modShutter k f).chain = p.chain := rfl
@[simp] theorem Part.modShutter_park (p : Part) (k : Nat) (f : ShutterRecord → ShutterRecord) : (p.modShutter k f).park = p.park := rfl
@[simp] theorem Part.modShutter_slides (p : Part) (k : Nat) (f : ShutterRecord → ShutterRecord) : (p.modShutter k f).slides = p.slides := rfl
@[simp] theorem Part.modShutter_withheld (p : Part) (k : Nat) (f : ShutterRecord → ShutterRecord) : (p.modShutter k f).withheld = p.withheld := rfl
@[simp] theorem Part.modShutter_sequences (p : Part) (k : Nat) (f : ShutterRecord → ShutterRecord) : (p.modShutter k f).sequences = p.sequences := rfl
@[simp] theorem Part.modShutter_posts (p : Part) (k : Nat) (f : ShutterRecord → ShutterRecord) : (p.modShutter k f).posts = p.posts := rfl
@[simp] theorem Part.modShutter_postCounts (p : Part) (k : Nat) (f : ShutterRecord → ShutterRecord) : (p.modShutter k f).postCounts = p.postCounts := rfl
@[simp] theorem Part.modShutter_calls (p : Part) (k : Nat) (f : ShutterRecord → ShutterRecord) : (p.modShutter k f).calls = p.calls := rfl
@[simp] theorem Part.modShutter_lastCall (p : Part) (k : Nat) (f : ShutterRecord → ShutterRecord) : (p.modShutter k f).lastCall = p.lastCall := rfl
@[simp] theorem Part.modShutter_unmatched (p : Part) (k : Nat) (f : ShutterRecord → ShutterRecord) : (p.modShutter k f).unmatched = p.unmatched := rfl
@[simp] theorem Part.modShutter_day (p : Part) (k : Nat) (f : ShutterRecord → ShutterRecord) : (p.modShutter k f).day = p.day := rfl
@[simp] theorem Part.modShutter_fire (p : Part) (k : Nat) (f : ShutterRecord → ShutterRecord) : (p.modShutter k f).fire = p.fire := rfl
@[simp] theorem Part.modShutter_claim (p : Part) (k : Nat) (f : ShutterRecord → ShutterRecord) : (p.modShutter k f).claim = p.claim := rfl
@[simp] theorem Part.modShutter_tables (p : Part) (k : Nat) (f : ShutterRecord → ShutterRecord) : (p.modShutter k f).tables = p.tables := rfl
@[simp] theorem Part.modShutter_copies (p : Part) (k : Nat) (f : ShutterRecord → ShutterRecord) : (p.modShutter k f).copies = p.copies := rfl
@[simp] theorem Part.modShutter_committed (p : Part) (k : Nat) (f : ShutterRecord → ShutterRecord) : (p.modShutter k f).committed = p.committed := rfl
@[simp] theorem Part.modShutter_notices (p : Part) (k : Nat) (f : ShutterRecord → ShutterRecord) : (p.modShutter k f).notices = p.notices := rfl
@[simp] theorem Part.modShutter_faults (p : Part) (k : Nat) (f : ShutterRecord → ShutterRecord) : (p.modShutter k f).faults = p.faults := rfl
@[simp] theorem Part.modShutter_ahead (p : Part) (k : Nat) (f : ShutterRecord → ShutterRecord) : (p.modShutter k f).ahead = p.ahead := rfl

/-! ## `Part.modSeq` -/

@[simp] theorem Part.modSeq_own (p : Part) (k : Nat) (f : LoweringSequence → LoweringSequence) : (p.modSeq k f).own = p.own := rfl
@[simp] theorem Part.modSeq_beforeFirst (p : Part) (k : Nat) (f : LoweringSequence → LoweringSequence) : (p.modSeq k f).beforeFirst = p.beforeFirst := rfl
@[simp] theorem Part.modSeq_cycle (p : Part) (k : Nat) (f : LoweringSequence → LoweringSequence) : (p.modSeq k f).cycle = p.cycle := rfl
@[simp] theorem Part.modSeq_periodic (p : Part) (k : Nat) (f : LoweringSequence → LoweringSequence) : (p.modSeq k f).periodic = p.periodic := rfl
@[simp] theorem Part.modSeq_markCode (p : Part) (k : Nat) (f : LoweringSequence → LoweringSequence) : (p.modSeq k f).markCode = p.markCode := rfl
@[simp] theorem Part.modSeq_sent (p : Part) (k : Nat) (f : LoweringSequence → LoweringSequence) : (p.modSeq k f).sent = p.sent := rfl
@[simp] theorem Part.modSeq_portN (p : Part) (k : Nat) (f : LoweringSequence → LoweringSequence) : (p.modSeq k f).portN = p.portN := rfl
@[simp] theorem Part.modSeq_portS (p : Part) (k : Nat) (f : LoweringSequence → LoweringSequence) : (p.modSeq k f).portS = p.portS := rfl
@[simp] theorem Part.modSeq_portW (p : Part) (k : Nat) (f : LoweringSequence → LoweringSequence) : (p.modSeq k f).portW = p.portW := rfl
@[simp] theorem Part.modSeq_agent (p : Part) (k : Nat) (f : LoweringSequence → LoweringSequence) : (p.modSeq k f).agent = p.agent := rfl
@[simp] theorem Part.modSeq_cooldown (p : Part) (k : Nat) (f : LoweringSequence → LoweringSequence) : (p.modSeq k f).cooldown = p.cooldown := rfl
@[simp] theorem Part.modSeq_hold (p : Part) (k : Nat) (f : LoweringSequence → LoweringSequence) : (p.modSeq k f).hold = p.hold := rfl
@[simp] theorem Part.modSeq_gates (p : Part) (k : Nat) (f : LoweringSequence → LoweringSequence) : (p.modSeq k f).gates = p.gates := rfl
@[simp] theorem Part.modSeq_orders (p : Part) (k : Nat) (f : LoweringSequence → LoweringSequence) : (p.modSeq k f).orders = p.orders := rfl
@[simp] theorem Part.modSeq_channels (p : Part) (k : Nat) (f : LoweringSequence → LoweringSequence) : (p.modSeq k f).channels = p.channels := rfl
@[simp] theorem Part.modSeq_toggles (p : Part) (k : Nat) (f : LoweringSequence → LoweringSequence) : (p.modSeq k f).toggles = p.toggles := rfl
@[simp] theorem Part.modSeq_stale (p : Part) (k : Nat) (f : LoweringSequence → LoweringSequence) : (p.modSeq k f).stale = p.stale := rfl
@[simp] theorem Part.modSeq_builds (p : Part) (k : Nat) (f : LoweringSequence → LoweringSequence) : (p.modSeq k f).builds = p.builds := rfl
@[simp] theorem Part.modSeq_moves (p : Part) (k : Nat) (f : LoweringSequence → LoweringSequence) : (p.modSeq k f).moves = p.moves := rfl
@[simp] theorem Part.modSeq_chain (p : Part) (k : Nat) (f : LoweringSequence → LoweringSequence) : (p.modSeq k f).chain = p.chain := rfl
@[simp] theorem Part.modSeq_park (p : Part) (k : Nat) (f : LoweringSequence → LoweringSequence) : (p.modSeq k f).park = p.park := rfl
@[simp] theorem Part.modSeq_slides (p : Part) (k : Nat) (f : LoweringSequence → LoweringSequence) : (p.modSeq k f).slides = p.slides := rfl
@[simp] theorem Part.modSeq_withheld (p : Part) (k : Nat) (f : LoweringSequence → LoweringSequence) : (p.modSeq k f).withheld = p.withheld := rfl
@[simp] theorem Part.modSeq_shutters (p : Part) (k : Nat) (f : LoweringSequence → LoweringSequence) : (p.modSeq k f).shutters = p.shutters := rfl
@[simp] theorem Part.modSeq_posts (p : Part) (k : Nat) (f : LoweringSequence → LoweringSequence) : (p.modSeq k f).posts = p.posts := rfl
@[simp] theorem Part.modSeq_postCounts (p : Part) (k : Nat) (f : LoweringSequence → LoweringSequence) : (p.modSeq k f).postCounts = p.postCounts := rfl
@[simp] theorem Part.modSeq_calls (p : Part) (k : Nat) (f : LoweringSequence → LoweringSequence) : (p.modSeq k f).calls = p.calls := rfl
@[simp] theorem Part.modSeq_lastCall (p : Part) (k : Nat) (f : LoweringSequence → LoweringSequence) : (p.modSeq k f).lastCall = p.lastCall := rfl
@[simp] theorem Part.modSeq_unmatched (p : Part) (k : Nat) (f : LoweringSequence → LoweringSequence) : (p.modSeq k f).unmatched = p.unmatched := rfl
@[simp] theorem Part.modSeq_day (p : Part) (k : Nat) (f : LoweringSequence → LoweringSequence) : (p.modSeq k f).day = p.day := rfl
@[simp] theorem Part.modSeq_fire (p : Part) (k : Nat) (f : LoweringSequence → LoweringSequence) : (p.modSeq k f).fire = p.fire := rfl
@[simp] theorem Part.modSeq_claim (p : Part) (k : Nat) (f : LoweringSequence → LoweringSequence) : (p.modSeq k f).claim = p.claim := rfl
@[simp] theorem Part.modSeq_tables (p : Part) (k : Nat) (f : LoweringSequence → LoweringSequence) : (p.modSeq k f).tables = p.tables := rfl
@[simp] theorem Part.modSeq_copies (p : Part) (k : Nat) (f : LoweringSequence → LoweringSequence) : (p.modSeq k f).copies = p.copies := rfl
@[simp] theorem Part.modSeq_committed (p : Part) (k : Nat) (f : LoweringSequence → LoweringSequence) : (p.modSeq k f).committed = p.committed := rfl
@[simp] theorem Part.modSeq_notices (p : Part) (k : Nat) (f : LoweringSequence → LoweringSequence) : (p.modSeq k f).notices = p.notices := rfl
@[simp] theorem Part.modSeq_faults (p : Part) (k : Nat) (f : LoweringSequence → LoweringSequence) : (p.modSeq k f).faults = p.faults := rfl
@[simp] theorem Part.modSeq_ahead (p : Part) (k : Nat) (f : LoweringSequence → LoweringSequence) : (p.modSeq k f).ahead = p.ahead := rfl

/-! ## `Part.modPost` -/

@[simp] theorem Part.modPost_own (p : Part) (k : Nat) (f : Post → Post) : (p.modPost k f).own = p.own := rfl
@[simp] theorem Part.modPost_beforeFirst (p : Part) (k : Nat) (f : Post → Post) : (p.modPost k f).beforeFirst = p.beforeFirst := rfl
@[simp] theorem Part.modPost_cycle (p : Part) (k : Nat) (f : Post → Post) : (p.modPost k f).cycle = p.cycle := rfl
@[simp] theorem Part.modPost_periodic (p : Part) (k : Nat) (f : Post → Post) : (p.modPost k f).periodic = p.periodic := rfl
@[simp] theorem Part.modPost_markCode (p : Part) (k : Nat) (f : Post → Post) : (p.modPost k f).markCode = p.markCode := rfl
@[simp] theorem Part.modPost_sent (p : Part) (k : Nat) (f : Post → Post) : (p.modPost k f).sent = p.sent := rfl
@[simp] theorem Part.modPost_portN (p : Part) (k : Nat) (f : Post → Post) : (p.modPost k f).portN = p.portN := rfl
@[simp] theorem Part.modPost_portS (p : Part) (k : Nat) (f : Post → Post) : (p.modPost k f).portS = p.portS := rfl
@[simp] theorem Part.modPost_portW (p : Part) (k : Nat) (f : Post → Post) : (p.modPost k f).portW = p.portW := rfl
@[simp] theorem Part.modPost_agent (p : Part) (k : Nat) (f : Post → Post) : (p.modPost k f).agent = p.agent := rfl
@[simp] theorem Part.modPost_cooldown (p : Part) (k : Nat) (f : Post → Post) : (p.modPost k f).cooldown = p.cooldown := rfl
@[simp] theorem Part.modPost_hold (p : Part) (k : Nat) (f : Post → Post) : (p.modPost k f).hold = p.hold := rfl
@[simp] theorem Part.modPost_gates (p : Part) (k : Nat) (f : Post → Post) : (p.modPost k f).gates = p.gates := rfl
@[simp] theorem Part.modPost_orders (p : Part) (k : Nat) (f : Post → Post) : (p.modPost k f).orders = p.orders := rfl
@[simp] theorem Part.modPost_channels (p : Part) (k : Nat) (f : Post → Post) : (p.modPost k f).channels = p.channels := rfl
@[simp] theorem Part.modPost_toggles (p : Part) (k : Nat) (f : Post → Post) : (p.modPost k f).toggles = p.toggles := rfl
@[simp] theorem Part.modPost_stale (p : Part) (k : Nat) (f : Post → Post) : (p.modPost k f).stale = p.stale := rfl
@[simp] theorem Part.modPost_builds (p : Part) (k : Nat) (f : Post → Post) : (p.modPost k f).builds = p.builds := rfl
@[simp] theorem Part.modPost_moves (p : Part) (k : Nat) (f : Post → Post) : (p.modPost k f).moves = p.moves := rfl
@[simp] theorem Part.modPost_chain (p : Part) (k : Nat) (f : Post → Post) : (p.modPost k f).chain = p.chain := rfl
@[simp] theorem Part.modPost_park (p : Part) (k : Nat) (f : Post → Post) : (p.modPost k f).park = p.park := rfl
@[simp] theorem Part.modPost_slides (p : Part) (k : Nat) (f : Post → Post) : (p.modPost k f).slides = p.slides := rfl
@[simp] theorem Part.modPost_withheld (p : Part) (k : Nat) (f : Post → Post) : (p.modPost k f).withheld = p.withheld := rfl
@[simp] theorem Part.modPost_shutters (p : Part) (k : Nat) (f : Post → Post) : (p.modPost k f).shutters = p.shutters := rfl
@[simp] theorem Part.modPost_sequences (p : Part) (k : Nat) (f : Post → Post) : (p.modPost k f).sequences = p.sequences := rfl
@[simp] theorem Part.modPost_postCounts (p : Part) (k : Nat) (f : Post → Post) : (p.modPost k f).postCounts = p.postCounts := rfl
@[simp] theorem Part.modPost_calls (p : Part) (k : Nat) (f : Post → Post) : (p.modPost k f).calls = p.calls := rfl
@[simp] theorem Part.modPost_lastCall (p : Part) (k : Nat) (f : Post → Post) : (p.modPost k f).lastCall = p.lastCall := rfl
@[simp] theorem Part.modPost_unmatched (p : Part) (k : Nat) (f : Post → Post) : (p.modPost k f).unmatched = p.unmatched := rfl
@[simp] theorem Part.modPost_day (p : Part) (k : Nat) (f : Post → Post) : (p.modPost k f).day = p.day := rfl
@[simp] theorem Part.modPost_fire (p : Part) (k : Nat) (f : Post → Post) : (p.modPost k f).fire = p.fire := rfl
@[simp] theorem Part.modPost_claim (p : Part) (k : Nat) (f : Post → Post) : (p.modPost k f).claim = p.claim := rfl
@[simp] theorem Part.modPost_tables (p : Part) (k : Nat) (f : Post → Post) : (p.modPost k f).tables = p.tables := rfl
@[simp] theorem Part.modPost_copies (p : Part) (k : Nat) (f : Post → Post) : (p.modPost k f).copies = p.copies := rfl
@[simp] theorem Part.modPost_committed (p : Part) (k : Nat) (f : Post → Post) : (p.modPost k f).committed = p.committed := rfl
@[simp] theorem Part.modPost_notices (p : Part) (k : Nat) (f : Post → Post) : (p.modPost k f).notices = p.notices := rfl
@[simp] theorem Part.modPost_faults (p : Part) (k : Nat) (f : Post → Post) : (p.modPost k f).faults = p.faults := rfl
@[simp] theorem Part.modPost_ahead (p : Part) (k : Nat) (f : Post → Post) : (p.modPost k f).ahead = p.ahead := rfl

/-! ## `Part.modPostCount` -/

@[simp] theorem Part.modPostCount_own (p : Part) (k : Nat) (f : PostCounters → PostCounters) : (p.modPostCount k f).own = p.own := rfl
@[simp] theorem Part.modPostCount_beforeFirst (p : Part) (k : Nat) (f : PostCounters → PostCounters) : (p.modPostCount k f).beforeFirst = p.beforeFirst := rfl
@[simp] theorem Part.modPostCount_cycle (p : Part) (k : Nat) (f : PostCounters → PostCounters) : (p.modPostCount k f).cycle = p.cycle := rfl
@[simp] theorem Part.modPostCount_periodic (p : Part) (k : Nat) (f : PostCounters → PostCounters) : (p.modPostCount k f).periodic = p.periodic := rfl
@[simp] theorem Part.modPostCount_markCode (p : Part) (k : Nat) (f : PostCounters → PostCounters) : (p.modPostCount k f).markCode = p.markCode := rfl
@[simp] theorem Part.modPostCount_sent (p : Part) (k : Nat) (f : PostCounters → PostCounters) : (p.modPostCount k f).sent = p.sent := rfl
@[simp] theorem Part.modPostCount_portN (p : Part) (k : Nat) (f : PostCounters → PostCounters) : (p.modPostCount k f).portN = p.portN := rfl
@[simp] theorem Part.modPostCount_portS (p : Part) (k : Nat) (f : PostCounters → PostCounters) : (p.modPostCount k f).portS = p.portS := rfl
@[simp] theorem Part.modPostCount_portW (p : Part) (k : Nat) (f : PostCounters → PostCounters) : (p.modPostCount k f).portW = p.portW := rfl
@[simp] theorem Part.modPostCount_agent (p : Part) (k : Nat) (f : PostCounters → PostCounters) : (p.modPostCount k f).agent = p.agent := rfl
@[simp] theorem Part.modPostCount_cooldown (p : Part) (k : Nat) (f : PostCounters → PostCounters) : (p.modPostCount k f).cooldown = p.cooldown := rfl
@[simp] theorem Part.modPostCount_hold (p : Part) (k : Nat) (f : PostCounters → PostCounters) : (p.modPostCount k f).hold = p.hold := rfl
@[simp] theorem Part.modPostCount_gates (p : Part) (k : Nat) (f : PostCounters → PostCounters) : (p.modPostCount k f).gates = p.gates := rfl
@[simp] theorem Part.modPostCount_orders (p : Part) (k : Nat) (f : PostCounters → PostCounters) : (p.modPostCount k f).orders = p.orders := rfl
@[simp] theorem Part.modPostCount_channels (p : Part) (k : Nat) (f : PostCounters → PostCounters) : (p.modPostCount k f).channels = p.channels := rfl
@[simp] theorem Part.modPostCount_toggles (p : Part) (k : Nat) (f : PostCounters → PostCounters) : (p.modPostCount k f).toggles = p.toggles := rfl
@[simp] theorem Part.modPostCount_stale (p : Part) (k : Nat) (f : PostCounters → PostCounters) : (p.modPostCount k f).stale = p.stale := rfl
@[simp] theorem Part.modPostCount_builds (p : Part) (k : Nat) (f : PostCounters → PostCounters) : (p.modPostCount k f).builds = p.builds := rfl
@[simp] theorem Part.modPostCount_moves (p : Part) (k : Nat) (f : PostCounters → PostCounters) : (p.modPostCount k f).moves = p.moves := rfl
@[simp] theorem Part.modPostCount_chain (p : Part) (k : Nat) (f : PostCounters → PostCounters) : (p.modPostCount k f).chain = p.chain := rfl
@[simp] theorem Part.modPostCount_park (p : Part) (k : Nat) (f : PostCounters → PostCounters) : (p.modPostCount k f).park = p.park := rfl
@[simp] theorem Part.modPostCount_slides (p : Part) (k : Nat) (f : PostCounters → PostCounters) : (p.modPostCount k f).slides = p.slides := rfl
@[simp] theorem Part.modPostCount_withheld (p : Part) (k : Nat) (f : PostCounters → PostCounters) : (p.modPostCount k f).withheld = p.withheld := rfl
@[simp] theorem Part.modPostCount_shutters (p : Part) (k : Nat) (f : PostCounters → PostCounters) : (p.modPostCount k f).shutters = p.shutters := rfl
@[simp] theorem Part.modPostCount_sequences (p : Part) (k : Nat) (f : PostCounters → PostCounters) : (p.modPostCount k f).sequences = p.sequences := rfl
@[simp] theorem Part.modPostCount_posts (p : Part) (k : Nat) (f : PostCounters → PostCounters) : (p.modPostCount k f).posts = p.posts := rfl
@[simp] theorem Part.modPostCount_calls (p : Part) (k : Nat) (f : PostCounters → PostCounters) : (p.modPostCount k f).calls = p.calls := rfl
@[simp] theorem Part.modPostCount_lastCall (p : Part) (k : Nat) (f : PostCounters → PostCounters) : (p.modPostCount k f).lastCall = p.lastCall := rfl
@[simp] theorem Part.modPostCount_unmatched (p : Part) (k : Nat) (f : PostCounters → PostCounters) : (p.modPostCount k f).unmatched = p.unmatched := rfl
@[simp] theorem Part.modPostCount_day (p : Part) (k : Nat) (f : PostCounters → PostCounters) : (p.modPostCount k f).day = p.day := rfl
@[simp] theorem Part.modPostCount_fire (p : Part) (k : Nat) (f : PostCounters → PostCounters) : (p.modPostCount k f).fire = p.fire := rfl
@[simp] theorem Part.modPostCount_claim (p : Part) (k : Nat) (f : PostCounters → PostCounters) : (p.modPostCount k f).claim = p.claim := rfl
@[simp] theorem Part.modPostCount_tables (p : Part) (k : Nat) (f : PostCounters → PostCounters) : (p.modPostCount k f).tables = p.tables := rfl
@[simp] theorem Part.modPostCount_copies (p : Part) (k : Nat) (f : PostCounters → PostCounters) : (p.modPostCount k f).copies = p.copies := rfl
@[simp] theorem Part.modPostCount_committed (p : Part) (k : Nat) (f : PostCounters → PostCounters) : (p.modPostCount k f).committed = p.committed := rfl
@[simp] theorem Part.modPostCount_notices (p : Part) (k : Nat) (f : PostCounters → PostCounters) : (p.modPostCount k f).notices = p.notices := rfl
@[simp] theorem Part.modPostCount_faults (p : Part) (k : Nat) (f : PostCounters → PostCounters) : (p.modPostCount k f).faults = p.faults := rfl
@[simp] theorem Part.modPostCount_ahead (p : Part) (k : Nat) (f : PostCounters → PostCounters) : (p.modPostCount k f).ahead = p.ahead := rfl

/-! ## `Part.dropPoll` -/

@[simp] theorem Part.dropPoll_own (p : Part) (q : PortId) : (p.dropPoll q).own = p.own := rfl
@[simp] theorem Part.dropPoll_beforeFirst (p : Part) (q : PortId) : (p.dropPoll q).beforeFirst = p.beforeFirst := rfl
@[simp] theorem Part.dropPoll_cycle (p : Part) (q : PortId) : (p.dropPoll q).cycle = p.cycle := rfl
@[simp] theorem Part.dropPoll_periodic (p : Part) (q : PortId) : (p.dropPoll q).periodic = p.periodic := rfl
@[simp] theorem Part.dropPoll_markCode (p : Part) (q : PortId) : (p.dropPoll q).markCode = p.markCode := rfl
@[simp] theorem Part.dropPoll_sent (p : Part) (q : PortId) : (p.dropPoll q).sent = p.sent := rfl
@[simp] theorem Part.dropPoll_portN (p : Part) (q : PortId) : (p.dropPoll q).portN = p.portN := rfl
@[simp] theorem Part.dropPoll_portS (p : Part) (q : PortId) : (p.dropPoll q).portS = p.portS := rfl
@[simp] theorem Part.dropPoll_portW (p : Part) (q : PortId) : (p.dropPoll q).portW = p.portW := rfl
@[simp] theorem Part.dropPoll_agent (p : Part) (q : PortId) : (p.dropPoll q).agent = p.agent := rfl
@[simp] theorem Part.dropPoll_cooldown (p : Part) (q : PortId) : (p.dropPoll q).cooldown = p.cooldown := rfl
@[simp] theorem Part.dropPoll_hold (p : Part) (q : PortId) : (p.dropPoll q).hold = p.hold := rfl
@[simp] theorem Part.dropPoll_gates (p : Part) (q : PortId) : (p.dropPoll q).gates = p.gates := rfl
@[simp] theorem Part.dropPoll_orders (p : Part) (q : PortId) : (p.dropPoll q).orders = p.orders := rfl
@[simp] theorem Part.dropPoll_channels (p : Part) (q : PortId) : (p.dropPoll q).channels = p.channels := rfl
@[simp] theorem Part.dropPoll_toggles (p : Part) (q : PortId) : (p.dropPoll q).toggles = p.toggles := rfl
@[simp] theorem Part.dropPoll_stale (p : Part) (q : PortId) : (p.dropPoll q).stale = p.stale := rfl
@[simp] theorem Part.dropPoll_builds (p : Part) (q : PortId) : (p.dropPoll q).builds = p.builds := rfl
@[simp] theorem Part.dropPoll_moves (p : Part) (q : PortId) : (p.dropPoll q).moves = p.moves := rfl
@[simp] theorem Part.dropPoll_posts (p : Part) (q : PortId) : (p.dropPoll q).posts = p.posts := rfl
@[simp] theorem Part.dropPoll_park (p : Part) (q : PortId) : (p.dropPoll q).park = p.park := rfl
@[simp] theorem Part.dropPoll_slides (p : Part) (q : PortId) : (p.dropPoll q).slides = p.slides := rfl
@[simp] theorem Part.dropPoll_withheld (p : Part) (q : PortId) : (p.dropPoll q).withheld = p.withheld := rfl
@[simp] theorem Part.dropPoll_shutters (p : Part) (q : PortId) : (p.dropPoll q).shutters = p.shutters := rfl
@[simp] theorem Part.dropPoll_sequences (p : Part) (q : PortId) : (p.dropPoll q).sequences = p.sequences := rfl
@[simp] theorem Part.dropPoll_postCounts (p : Part) (q : PortId) : (p.dropPoll q).postCounts = p.postCounts := rfl
@[simp] theorem Part.dropPoll_calls (p : Part) (q : PortId) : (p.dropPoll q).calls = p.calls := rfl
@[simp] theorem Part.dropPoll_lastCall (p : Part) (q : PortId) : (p.dropPoll q).lastCall = p.lastCall := rfl
@[simp] theorem Part.dropPoll_unmatched (p : Part) (q : PortId) : (p.dropPoll q).unmatched = p.unmatched := rfl
@[simp] theorem Part.dropPoll_day (p : Part) (q : PortId) : (p.dropPoll q).day = p.day := rfl
@[simp] theorem Part.dropPoll_fire (p : Part) (q : PortId) : (p.dropPoll q).fire = p.fire := rfl
@[simp] theorem Part.dropPoll_claim (p : Part) (q : PortId) : (p.dropPoll q).claim = p.claim := rfl
@[simp] theorem Part.dropPoll_tables (p : Part) (q : PortId) : (p.dropPoll q).tables = p.tables := rfl
@[simp] theorem Part.dropPoll_copies (p : Part) (q : PortId) : (p.dropPoll q).copies = p.copies := rfl
@[simp] theorem Part.dropPoll_committed (p : Part) (q : PortId) : (p.dropPoll q).committed = p.committed := rfl
@[simp] theorem Part.dropPoll_notices (p : Part) (q : PortId) : (p.dropPoll q).notices = p.notices := rfl
@[simp] theorem Part.dropPoll_faults (p : Part) (q : PortId) : (p.dropPoll q).faults = p.faults := rfl
@[simp] theorem Part.dropPoll_ahead (p : Part) (q : PortId) : (p.dropPoll q).ahead = p.ahead := rfl

/-! ## `Part.modCall` -/

@[simp] theorem Part.modCall_own (p : Part) (id : Nat) (f : Call → Call) : (p.modCall id f).own = p.own := rfl
@[simp] theorem Part.modCall_beforeFirst (p : Part) (id : Nat) (f : Call → Call) : (p.modCall id f).beforeFirst = p.beforeFirst := rfl
@[simp] theorem Part.modCall_cycle (p : Part) (id : Nat) (f : Call → Call) : (p.modCall id f).cycle = p.cycle := rfl
@[simp] theorem Part.modCall_periodic (p : Part) (id : Nat) (f : Call → Call) : (p.modCall id f).periodic = p.periodic := rfl
@[simp] theorem Part.modCall_markCode (p : Part) (id : Nat) (f : Call → Call) : (p.modCall id f).markCode = p.markCode := rfl
@[simp] theorem Part.modCall_sent (p : Part) (id : Nat) (f : Call → Call) : (p.modCall id f).sent = p.sent := rfl
@[simp] theorem Part.modCall_portN (p : Part) (id : Nat) (f : Call → Call) : (p.modCall id f).portN = p.portN := rfl
@[simp] theorem Part.modCall_portS (p : Part) (id : Nat) (f : Call → Call) : (p.modCall id f).portS = p.portS := rfl
@[simp] theorem Part.modCall_portW (p : Part) (id : Nat) (f : Call → Call) : (p.modCall id f).portW = p.portW := rfl
@[simp] theorem Part.modCall_agent (p : Part) (id : Nat) (f : Call → Call) : (p.modCall id f).agent = p.agent := rfl
@[simp] theorem Part.modCall_cooldown (p : Part) (id : Nat) (f : Call → Call) : (p.modCall id f).cooldown = p.cooldown := rfl
@[simp] theorem Part.modCall_hold (p : Part) (id : Nat) (f : Call → Call) : (p.modCall id f).hold = p.hold := rfl
@[simp] theorem Part.modCall_gates (p : Part) (id : Nat) (f : Call → Call) : (p.modCall id f).gates = p.gates := rfl
@[simp] theorem Part.modCall_orders (p : Part) (id : Nat) (f : Call → Call) : (p.modCall id f).orders = p.orders := rfl
@[simp] theorem Part.modCall_channels (p : Part) (id : Nat) (f : Call → Call) : (p.modCall id f).channels = p.channels := rfl
@[simp] theorem Part.modCall_toggles (p : Part) (id : Nat) (f : Call → Call) : (p.modCall id f).toggles = p.toggles := rfl
@[simp] theorem Part.modCall_stale (p : Part) (id : Nat) (f : Call → Call) : (p.modCall id f).stale = p.stale := rfl
@[simp] theorem Part.modCall_builds (p : Part) (id : Nat) (f : Call → Call) : (p.modCall id f).builds = p.builds := rfl
@[simp] theorem Part.modCall_moves (p : Part) (id : Nat) (f : Call → Call) : (p.modCall id f).moves = p.moves := rfl
@[simp] theorem Part.modCall_chain (p : Part) (id : Nat) (f : Call → Call) : (p.modCall id f).chain = p.chain := rfl
@[simp] theorem Part.modCall_park (p : Part) (id : Nat) (f : Call → Call) : (p.modCall id f).park = p.park := rfl
@[simp] theorem Part.modCall_slides (p : Part) (id : Nat) (f : Call → Call) : (p.modCall id f).slides = p.slides := rfl
@[simp] theorem Part.modCall_withheld (p : Part) (id : Nat) (f : Call → Call) : (p.modCall id f).withheld = p.withheld := rfl
@[simp] theorem Part.modCall_shutters (p : Part) (id : Nat) (f : Call → Call) : (p.modCall id f).shutters = p.shutters := rfl
@[simp] theorem Part.modCall_sequences (p : Part) (id : Nat) (f : Call → Call) : (p.modCall id f).sequences = p.sequences := rfl
@[simp] theorem Part.modCall_posts (p : Part) (id : Nat) (f : Call → Call) : (p.modCall id f).posts = p.posts := rfl
@[simp] theorem Part.modCall_postCounts (p : Part) (id : Nat) (f : Call → Call) : (p.modCall id f).postCounts = p.postCounts := rfl
@[simp] theorem Part.modCall_lastCall (p : Part) (id : Nat) (f : Call → Call) : (p.modCall id f).lastCall = p.lastCall := rfl
@[simp] theorem Part.modCall_unmatched (p : Part) (id : Nat) (f : Call → Call) : (p.modCall id f).unmatched = p.unmatched := rfl
@[simp] theorem Part.modCall_day (p : Part) (id : Nat) (f : Call → Call) : (p.modCall id f).day = p.day := rfl
@[simp] theorem Part.modCall_fire (p : Part) (id : Nat) (f : Call → Call) : (p.modCall id f).fire = p.fire := rfl
@[simp] theorem Part.modCall_claim (p : Part) (id : Nat) (f : Call → Call) : (p.modCall id f).claim = p.claim := rfl
@[simp] theorem Part.modCall_tables (p : Part) (id : Nat) (f : Call → Call) : (p.modCall id f).tables = p.tables := rfl
@[simp] theorem Part.modCall_copies (p : Part) (id : Nat) (f : Call → Call) : (p.modCall id f).copies = p.copies := rfl
@[simp] theorem Part.modCall_committed (p : Part) (id : Nat) (f : Call → Call) : (p.modCall id f).committed = p.committed := rfl
@[simp] theorem Part.modCall_notices (p : Part) (id : Nat) (f : Call → Call) : (p.modCall id f).notices = p.notices := rfl
@[simp] theorem Part.modCall_faults (p : Part) (id : Nat) (f : Call → Call) : (p.modCall id f).faults = p.faults := rfl
@[simp] theorem Part.modCall_ahead (p : Part) (id : Nat) (f : Call → Call) : (p.modCall id f).ahead = p.ahead := rfl

/-! ## `Part.placeOrder` -/

@[simp] theorem Part.placeOrder_own (p : Part) (r : RecordId) (o : Order) (c : Cls) (st : Station) : (p.placeOrder r o c st).own = p.own := rfl
@[simp] theorem Part.placeOrder_beforeFirst (p : Part) (r : RecordId) (o : Order) (c : Cls) (st : Station) : (p.placeOrder r o c st).beforeFirst = p.beforeFirst := rfl
@[simp] theorem Part.placeOrder_cycle (p : Part) (r : RecordId) (o : Order) (c : Cls) (st : Station) : (p.placeOrder r o c st).cycle = p.cycle := rfl
@[simp] theorem Part.placeOrder_periodic (p : Part) (r : RecordId) (o : Order) (c : Cls) (st : Station) : (p.placeOrder r o c st).periodic = p.periodic := rfl
@[simp] theorem Part.placeOrder_markCode (p : Part) (r : RecordId) (o : Order) (c : Cls) (st : Station) : (p.placeOrder r o c st).markCode = p.markCode := rfl
@[simp] theorem Part.placeOrder_sent (p : Part) (r : RecordId) (o : Order) (c : Cls) (st : Station) : (p.placeOrder r o c st).sent = p.sent := rfl
@[simp] theorem Part.placeOrder_portN (p : Part) (r : RecordId) (o : Order) (c : Cls) (st : Station) : (p.placeOrder r o c st).portN = p.portN := rfl
@[simp] theorem Part.placeOrder_portS (p : Part) (r : RecordId) (o : Order) (c : Cls) (st : Station) : (p.placeOrder r o c st).portS = p.portS := rfl
@[simp] theorem Part.placeOrder_portW (p : Part) (r : RecordId) (o : Order) (c : Cls) (st : Station) : (p.placeOrder r o c st).portW = p.portW := rfl
@[simp] theorem Part.placeOrder_agent (p : Part) (r : RecordId) (o : Order) (c : Cls) (st : Station) : (p.placeOrder r o c st).agent = p.agent := rfl
@[simp] theorem Part.placeOrder_cooldown (p : Part) (r : RecordId) (o : Order) (c : Cls) (st : Station) : (p.placeOrder r o c st).cooldown = p.cooldown := rfl
@[simp] theorem Part.placeOrder_hold (p : Part) (r : RecordId) (o : Order) (c : Cls) (st : Station) : (p.placeOrder r o c st).hold = p.hold := rfl
@[simp] theorem Part.placeOrder_gates (p : Part) (r : RecordId) (o : Order) (c : Cls) (st : Station) : (p.placeOrder r o c st).gates = p.gates := rfl
@[simp] theorem Part.placeOrder_channels (p : Part) (r : RecordId) (o : Order) (c : Cls) (st : Station) : (p.placeOrder r o c st).channels = p.channels := rfl
@[simp] theorem Part.placeOrder_toggles (p : Part) (r : RecordId) (o : Order) (c : Cls) (st : Station) : (p.placeOrder r o c st).toggles = p.toggles := rfl
@[simp] theorem Part.placeOrder_stale (p : Part) (r : RecordId) (o : Order) (c : Cls) (st : Station) : (p.placeOrder r o c st).stale = p.stale := rfl
@[simp] theorem Part.placeOrder_builds (p : Part) (r : RecordId) (o : Order) (c : Cls) (st : Station) : (p.placeOrder r o c st).builds = p.builds := rfl
@[simp] theorem Part.placeOrder_moves (p : Part) (r : RecordId) (o : Order) (c : Cls) (st : Station) : (p.placeOrder r o c st).moves = p.moves := rfl
@[simp] theorem Part.placeOrder_chain (p : Part) (r : RecordId) (o : Order) (c : Cls) (st : Station) : (p.placeOrder r o c st).chain = p.chain := rfl
@[simp] theorem Part.placeOrder_park (p : Part) (r : RecordId) (o : Order) (c : Cls) (st : Station) : (p.placeOrder r o c st).park = p.park := rfl
@[simp] theorem Part.placeOrder_slides (p : Part) (r : RecordId) (o : Order) (c : Cls) (st : Station) : (p.placeOrder r o c st).slides = p.slides := rfl
@[simp] theorem Part.placeOrder_withheld (p : Part) (r : RecordId) (o : Order) (c : Cls) (st : Station) : (p.placeOrder r o c st).withheld = p.withheld := rfl
@[simp] theorem Part.placeOrder_shutters (p : Part) (r : RecordId) (o : Order) (c : Cls) (st : Station) : (p.placeOrder r o c st).shutters = p.shutters := rfl
@[simp] theorem Part.placeOrder_sequences (p : Part) (r : RecordId) (o : Order) (c : Cls) (st : Station) : (p.placeOrder r o c st).sequences = p.sequences := rfl
@[simp] theorem Part.placeOrder_posts (p : Part) (r : RecordId) (o : Order) (c : Cls) (st : Station) : (p.placeOrder r o c st).posts = p.posts := rfl
@[simp] theorem Part.placeOrder_postCounts (p : Part) (r : RecordId) (o : Order) (c : Cls) (st : Station) : (p.placeOrder r o c st).postCounts = p.postCounts := rfl
@[simp] theorem Part.placeOrder_calls (p : Part) (r : RecordId) (o : Order) (c : Cls) (st : Station) : (p.placeOrder r o c st).calls = p.calls := rfl
@[simp] theorem Part.placeOrder_lastCall (p : Part) (r : RecordId) (o : Order) (c : Cls) (st : Station) : (p.placeOrder r o c st).lastCall = p.lastCall := rfl
@[simp] theorem Part.placeOrder_unmatched (p : Part) (r : RecordId) (o : Order) (c : Cls) (st : Station) : (p.placeOrder r o c st).unmatched = p.unmatched := rfl
@[simp] theorem Part.placeOrder_day (p : Part) (r : RecordId) (o : Order) (c : Cls) (st : Station) : (p.placeOrder r o c st).day = p.day := rfl
@[simp] theorem Part.placeOrder_fire (p : Part) (r : RecordId) (o : Order) (c : Cls) (st : Station) : (p.placeOrder r o c st).fire = p.fire := rfl
@[simp] theorem Part.placeOrder_claim (p : Part) (r : RecordId) (o : Order) (c : Cls) (st : Station) : (p.placeOrder r o c st).claim = p.claim := rfl
@[simp] theorem Part.placeOrder_tables (p : Part) (r : RecordId) (o : Order) (c : Cls) (st : Station) : (p.placeOrder r o c st).tables = p.tables := rfl
@[simp] theorem Part.placeOrder_copies (p : Part) (r : RecordId) (o : Order) (c : Cls) (st : Station) : (p.placeOrder r o c st).copies = p.copies := rfl
@[simp] theorem Part.placeOrder_committed (p : Part) (r : RecordId) (o : Order) (c : Cls) (st : Station) : (p.placeOrder r o c st).committed = p.committed := rfl
@[simp] theorem Part.placeOrder_notices (p : Part) (r : RecordId) (o : Order) (c : Cls) (st : Station) : (p.placeOrder r o c st).notices = p.notices := rfl
@[simp] theorem Part.placeOrder_faults (p : Part) (r : RecordId) (o : Order) (c : Cls) (st : Station) : (p.placeOrder r o c st).faults = p.faults := rfl
@[simp] theorem Part.placeOrder_ahead (p : Part) (r : RecordId) (o : Order) (c : Cls) (st : Station) : (p.placeOrder r o c st).ahead = p.ahead := rfl

/-! ## `Part.removeOrder` -/

@[simp] theorem Part.removeOrder_own (p : Part) (r : RecordId) : (p.removeOrder r).own = p.own := rfl
@[simp] theorem Part.removeOrder_beforeFirst (p : Part) (r : RecordId) : (p.removeOrder r).beforeFirst = p.beforeFirst := rfl
@[simp] theorem Part.removeOrder_cycle (p : Part) (r : RecordId) : (p.removeOrder r).cycle = p.cycle := rfl
@[simp] theorem Part.removeOrder_periodic (p : Part) (r : RecordId) : (p.removeOrder r).periodic = p.periodic := rfl
@[simp] theorem Part.removeOrder_markCode (p : Part) (r : RecordId) : (p.removeOrder r).markCode = p.markCode := rfl
@[simp] theorem Part.removeOrder_sent (p : Part) (r : RecordId) : (p.removeOrder r).sent = p.sent := rfl
@[simp] theorem Part.removeOrder_portN (p : Part) (r : RecordId) : (p.removeOrder r).portN = p.portN := rfl
@[simp] theorem Part.removeOrder_portS (p : Part) (r : RecordId) : (p.removeOrder r).portS = p.portS := rfl
@[simp] theorem Part.removeOrder_portW (p : Part) (r : RecordId) : (p.removeOrder r).portW = p.portW := rfl
@[simp] theorem Part.removeOrder_agent (p : Part) (r : RecordId) : (p.removeOrder r).agent = p.agent := rfl
@[simp] theorem Part.removeOrder_cooldown (p : Part) (r : RecordId) : (p.removeOrder r).cooldown = p.cooldown := rfl
@[simp] theorem Part.removeOrder_hold (p : Part) (r : RecordId) : (p.removeOrder r).hold = p.hold := rfl
@[simp] theorem Part.removeOrder_gates (p : Part) (r : RecordId) : (p.removeOrder r).gates = p.gates := rfl
@[simp] theorem Part.removeOrder_channels (p : Part) (r : RecordId) : (p.removeOrder r).channels = p.channels := rfl
@[simp] theorem Part.removeOrder_toggles (p : Part) (r : RecordId) : (p.removeOrder r).toggles = p.toggles := rfl
@[simp] theorem Part.removeOrder_stale (p : Part) (r : RecordId) : (p.removeOrder r).stale = p.stale := rfl
@[simp] theorem Part.removeOrder_builds (p : Part) (r : RecordId) : (p.removeOrder r).builds = p.builds := rfl
@[simp] theorem Part.removeOrder_moves (p : Part) (r : RecordId) : (p.removeOrder r).moves = p.moves := rfl
@[simp] theorem Part.removeOrder_chain (p : Part) (r : RecordId) : (p.removeOrder r).chain = p.chain := rfl
@[simp] theorem Part.removeOrder_park (p : Part) (r : RecordId) : (p.removeOrder r).park = p.park := rfl
@[simp] theorem Part.removeOrder_slides (p : Part) (r : RecordId) : (p.removeOrder r).slides = p.slides := rfl
@[simp] theorem Part.removeOrder_withheld (p : Part) (r : RecordId) : (p.removeOrder r).withheld = p.withheld := rfl
@[simp] theorem Part.removeOrder_shutters (p : Part) (r : RecordId) : (p.removeOrder r).shutters = p.shutters := rfl
@[simp] theorem Part.removeOrder_sequences (p : Part) (r : RecordId) : (p.removeOrder r).sequences = p.sequences := rfl
@[simp] theorem Part.removeOrder_posts (p : Part) (r : RecordId) : (p.removeOrder r).posts = p.posts := rfl
@[simp] theorem Part.removeOrder_postCounts (p : Part) (r : RecordId) : (p.removeOrder r).postCounts = p.postCounts := rfl
@[simp] theorem Part.removeOrder_calls (p : Part) (r : RecordId) : (p.removeOrder r).calls = p.calls := rfl
@[simp] theorem Part.removeOrder_lastCall (p : Part) (r : RecordId) : (p.removeOrder r).lastCall = p.lastCall := rfl
@[simp] theorem Part.removeOrder_unmatched (p : Part) (r : RecordId) : (p.removeOrder r).unmatched = p.unmatched := rfl
@[simp] theorem Part.removeOrder_day (p : Part) (r : RecordId) : (p.removeOrder r).day = p.day := rfl
@[simp] theorem Part.removeOrder_fire (p : Part) (r : RecordId) : (p.removeOrder r).fire = p.fire := rfl
@[simp] theorem Part.removeOrder_claim (p : Part) (r : RecordId) : (p.removeOrder r).claim = p.claim := rfl
@[simp] theorem Part.removeOrder_tables (p : Part) (r : RecordId) : (p.removeOrder r).tables = p.tables := rfl
@[simp] theorem Part.removeOrder_copies (p : Part) (r : RecordId) : (p.removeOrder r).copies = p.copies := rfl
@[simp] theorem Part.removeOrder_committed (p : Part) (r : RecordId) : (p.removeOrder r).committed = p.committed := rfl
@[simp] theorem Part.removeOrder_notices (p : Part) (r : RecordId) : (p.removeOrder r).notices = p.notices := rfl
@[simp] theorem Part.removeOrder_faults (p : Part) (r : RecordId) : (p.removeOrder r).faults = p.faults := rfl
@[simp] theorem Part.removeOrder_ahead (p : Part) (r : RecordId) : (p.removeOrder r).ahead = p.ahead := rfl

/-! ## `Part.deafen` -/

@[simp] theorem Part.deafen_own (p : Part) (r : RecordId) : (p.deafen r).own = p.own := rfl
@[simp] theorem Part.deafen_beforeFirst (p : Part) (r : RecordId) : (p.deafen r).beforeFirst = p.beforeFirst := rfl
@[simp] theorem Part.deafen_cycle (p : Part) (r : RecordId) : (p.deafen r).cycle = p.cycle := rfl
@[simp] theorem Part.deafen_periodic (p : Part) (r : RecordId) : (p.deafen r).periodic = p.periodic := rfl
@[simp] theorem Part.deafen_markCode (p : Part) (r : RecordId) : (p.deafen r).markCode = p.markCode := rfl
@[simp] theorem Part.deafen_sent (p : Part) (r : RecordId) : (p.deafen r).sent = p.sent := rfl
@[simp] theorem Part.deafen_portN (p : Part) (r : RecordId) : (p.deafen r).portN = p.portN := rfl
@[simp] theorem Part.deafen_portS (p : Part) (r : RecordId) : (p.deafen r).portS = p.portS := rfl
@[simp] theorem Part.deafen_portW (p : Part) (r : RecordId) : (p.deafen r).portW = p.portW := rfl
@[simp] theorem Part.deafen_agent (p : Part) (r : RecordId) : (p.deafen r).agent = p.agent := rfl
@[simp] theorem Part.deafen_cooldown (p : Part) (r : RecordId) : (p.deafen r).cooldown = p.cooldown := rfl
@[simp] theorem Part.deafen_hold (p : Part) (r : RecordId) : (p.deafen r).hold = p.hold := rfl
@[simp] theorem Part.deafen_gates (p : Part) (r : RecordId) : (p.deafen r).gates = p.gates := rfl
@[simp] theorem Part.deafen_orders (p : Part) (r : RecordId) : (p.deafen r).orders = p.orders := rfl
@[simp] theorem Part.deafen_toggles (p : Part) (r : RecordId) : (p.deafen r).toggles = p.toggles := rfl
@[simp] theorem Part.deafen_stale (p : Part) (r : RecordId) : (p.deafen r).stale = p.stale := rfl
@[simp] theorem Part.deafen_builds (p : Part) (r : RecordId) : (p.deafen r).builds = p.builds := rfl
@[simp] theorem Part.deafen_moves (p : Part) (r : RecordId) : (p.deafen r).moves = p.moves := rfl
@[simp] theorem Part.deafen_chain (p : Part) (r : RecordId) : (p.deafen r).chain = p.chain := rfl
@[simp] theorem Part.deafen_park (p : Part) (r : RecordId) : (p.deafen r).park = p.park := rfl
@[simp] theorem Part.deafen_slides (p : Part) (r : RecordId) : (p.deafen r).slides = p.slides := rfl
@[simp] theorem Part.deafen_withheld (p : Part) (r : RecordId) : (p.deafen r).withheld = p.withheld := rfl
@[simp] theorem Part.deafen_shutters (p : Part) (r : RecordId) : (p.deafen r).shutters = p.shutters := rfl
@[simp] theorem Part.deafen_sequences (p : Part) (r : RecordId) : (p.deafen r).sequences = p.sequences := rfl
@[simp] theorem Part.deafen_posts (p : Part) (r : RecordId) : (p.deafen r).posts = p.posts := rfl
@[simp] theorem Part.deafen_postCounts (p : Part) (r : RecordId) : (p.deafen r).postCounts = p.postCounts := rfl
@[simp] theorem Part.deafen_calls (p : Part) (r : RecordId) : (p.deafen r).calls = p.calls := rfl
@[simp] theorem Part.deafen_lastCall (p : Part) (r : RecordId) : (p.deafen r).lastCall = p.lastCall := rfl
@[simp] theorem Part.deafen_unmatched (p : Part) (r : RecordId) : (p.deafen r).unmatched = p.unmatched := rfl
@[simp] theorem Part.deafen_day (p : Part) (r : RecordId) : (p.deafen r).day = p.day := rfl
@[simp] theorem Part.deafen_fire (p : Part) (r : RecordId) : (p.deafen r).fire = p.fire := rfl
@[simp] theorem Part.deafen_claim (p : Part) (r : RecordId) : (p.deafen r).claim = p.claim := rfl
@[simp] theorem Part.deafen_tables (p : Part) (r : RecordId) : (p.deafen r).tables = p.tables := rfl
@[simp] theorem Part.deafen_copies (p : Part) (r : RecordId) : (p.deafen r).copies = p.copies := rfl
@[simp] theorem Part.deafen_committed (p : Part) (r : RecordId) : (p.deafen r).committed = p.committed := rfl
@[simp] theorem Part.deafen_notices (p : Part) (r : RecordId) : (p.deafen r).notices = p.notices := rfl
@[simp] theorem Part.deafen_faults (p : Part) (r : RecordId) : (p.deafen r).faults = p.faults := rfl
@[simp] theorem Part.deafen_ahead (p : Part) (r : RecordId) : (p.deafen r).ahead = p.ahead := rfl

/-! ## `Part.transmit` -/

@[simp] theorem Part.transmit_own (p : Part) (q : PortId) (f : Frame) : (p.transmit q f).own = p.own := rfl
@[simp] theorem Part.transmit_beforeFirst (p : Part) (q : PortId) (f : Frame) : (p.transmit q f).beforeFirst = p.beforeFirst := rfl
@[simp] theorem Part.transmit_cycle (p : Part) (q : PortId) (f : Frame) : (p.transmit q f).cycle = p.cycle := rfl
@[simp] theorem Part.transmit_periodic (p : Part) (q : PortId) (f : Frame) : (p.transmit q f).periodic = p.periodic := rfl
@[simp] theorem Part.transmit_markCode (p : Part) (q : PortId) (f : Frame) : (p.transmit q f).markCode = p.markCode := rfl
@[simp] theorem Part.transmit_portN (p : Part) (q : PortId) (f : Frame) : (p.transmit q f).portN = p.portN := rfl
@[simp] theorem Part.transmit_portS (p : Part) (q : PortId) (f : Frame) : (p.transmit q f).portS = p.portS := rfl
@[simp] theorem Part.transmit_portW (p : Part) (q : PortId) (f : Frame) : (p.transmit q f).portW = p.portW := rfl
@[simp] theorem Part.transmit_agent (p : Part) (q : PortId) (f : Frame) : (p.transmit q f).agent = p.agent := rfl
@[simp] theorem Part.transmit_cooldown (p : Part) (q : PortId) (f : Frame) : (p.transmit q f).cooldown = p.cooldown := rfl
@[simp] theorem Part.transmit_hold (p : Part) (q : PortId) (f : Frame) : (p.transmit q f).hold = p.hold := rfl
@[simp] theorem Part.transmit_gates (p : Part) (q : PortId) (f : Frame) : (p.transmit q f).gates = p.gates := rfl
@[simp] theorem Part.transmit_orders (p : Part) (q : PortId) (f : Frame) : (p.transmit q f).orders = p.orders := rfl
@[simp] theorem Part.transmit_channels (p : Part) (q : PortId) (f : Frame) : (p.transmit q f).channels = p.channels := rfl
@[simp] theorem Part.transmit_toggles (p : Part) (q : PortId) (f : Frame) : (p.transmit q f).toggles = p.toggles := rfl
@[simp] theorem Part.transmit_stale (p : Part) (q : PortId) (f : Frame) : (p.transmit q f).stale = p.stale := rfl
@[simp] theorem Part.transmit_builds (p : Part) (q : PortId) (f : Frame) : (p.transmit q f).builds = p.builds := rfl
@[simp] theorem Part.transmit_moves (p : Part) (q : PortId) (f : Frame) : (p.transmit q f).moves = p.moves := rfl
@[simp] theorem Part.transmit_chain (p : Part) (q : PortId) (f : Frame) : (p.transmit q f).chain = p.chain := rfl
@[simp] theorem Part.transmit_park (p : Part) (q : PortId) (f : Frame) : (p.transmit q f).park = p.park := rfl
@[simp] theorem Part.transmit_slides (p : Part) (q : PortId) (f : Frame) : (p.transmit q f).slides = p.slides := rfl
@[simp] theorem Part.transmit_withheld (p : Part) (q : PortId) (f : Frame) : (p.transmit q f).withheld = p.withheld := rfl
@[simp] theorem Part.transmit_shutters (p : Part) (q : PortId) (f : Frame) : (p.transmit q f).shutters = p.shutters := rfl
@[simp] theorem Part.transmit_sequences (p : Part) (q : PortId) (f : Frame) : (p.transmit q f).sequences = p.sequences := rfl
@[simp] theorem Part.transmit_posts (p : Part) (q : PortId) (f : Frame) : (p.transmit q f).posts = p.posts := rfl
@[simp] theorem Part.transmit_postCounts (p : Part) (q : PortId) (f : Frame) : (p.transmit q f).postCounts = p.postCounts := rfl
@[simp] theorem Part.transmit_calls (p : Part) (q : PortId) (f : Frame) : (p.transmit q f).calls = p.calls := rfl
@[simp] theorem Part.transmit_lastCall (p : Part) (q : PortId) (f : Frame) : (p.transmit q f).lastCall = p.lastCall := rfl
@[simp] theorem Part.transmit_unmatched (p : Part) (q : PortId) (f : Frame) : (p.transmit q f).unmatched = p.unmatched := rfl
@[simp] theorem Part.transmit_day (p : Part) (q : PortId) (f : Frame) : (p.transmit q f).day = p.day := rfl
@[simp] theorem Part.transmit_fire (p : Part) (q : PortId) (f : Frame) : (p.transmit q f).fire = p.fire := rfl
@[simp] theorem Part.transmit_claim (p : Part) (q : PortId) (f : Frame) : (p.transmit q f).claim = p.claim := rfl
@[simp] theorem Part.transmit_tables (p : Part) (q : PortId) (f : Frame) : (p.transmit q f).tables = p.tables := rfl
@[simp] theorem Part.transmit_copies (p : Part) (q : PortId) (f : Frame) : (p.transmit q f).copies = p.copies := rfl
@[simp] theorem Part.transmit_committed (p : Part) (q : PortId) (f : Frame) : (p.transmit q f).committed = p.committed := rfl
@[simp] theorem Part.transmit_notices (p : Part) (q : PortId) (f : Frame) : (p.transmit q f).notices = p.notices := rfl
@[simp] theorem Part.transmit_faults (p : Part) (q : PortId) (f : Frame) : (p.transmit q f).faults = p.faults := rfl
@[simp] theorem Part.transmit_ahead (p : Part) (q : PortId) (f : Frame) : (p.transmit q f).ahead = p.ahead := rfl

/-! ## `Part.restage` -/

@[simp] theorem Part.restage_own (p : Part) : (p.restage).own = p.own := rfl
@[simp] theorem Part.restage_beforeFirst (p : Part) : (p.restage).beforeFirst = p.beforeFirst := rfl
@[simp] theorem Part.restage_cycle (p : Part) : (p.restage).cycle = p.cycle := rfl
@[simp] theorem Part.restage_periodic (p : Part) : (p.restage).periodic = p.periodic := rfl
@[simp] theorem Part.restage_markCode (p : Part) : (p.restage).markCode = p.markCode := rfl
@[simp] theorem Part.restage_sent (p : Part) : (p.restage).sent = p.sent := rfl
@[simp] theorem Part.restage_portN (p : Part) : (p.restage).portN = p.portN := rfl
@[simp] theorem Part.restage_portS (p : Part) : (p.restage).portS = p.portS := rfl
@[simp] theorem Part.restage_portW (p : Part) : (p.restage).portW = p.portW := rfl
@[simp] theorem Part.restage_agent (p : Part) : (p.restage).agent = p.agent := rfl
@[simp] theorem Part.restage_cooldown (p : Part) : (p.restage).cooldown = p.cooldown := rfl
@[simp] theorem Part.restage_hold (p : Part) : (p.restage).hold = p.hold := rfl
@[simp] theorem Part.restage_gates (p : Part) : (p.restage).gates = p.gates := rfl
@[simp] theorem Part.restage_orders (p : Part) : (p.restage).orders = p.orders := rfl
@[simp] theorem Part.restage_channels (p : Part) : (p.restage).channels = p.channels := rfl
@[simp] theorem Part.restage_toggles (p : Part) : (p.restage).toggles = p.toggles := rfl
@[simp] theorem Part.restage_stale (p : Part) : (p.restage).stale = p.stale := rfl
@[simp] theorem Part.restage_builds (p : Part) : (p.restage).builds = p.builds := rfl
@[simp] theorem Part.restage_moves (p : Part) : (p.restage).moves = p.moves := rfl
@[simp] theorem Part.restage_park (p : Part) : (p.restage).park = p.park := rfl
@[simp] theorem Part.restage_slides (p : Part) : (p.restage).slides = p.slides := rfl
@[simp] theorem Part.restage_withheld (p : Part) : (p.restage).withheld = p.withheld := rfl
@[simp] theorem Part.restage_shutters (p : Part) : (p.restage).shutters = p.shutters := rfl
@[simp] theorem Part.restage_sequences (p : Part) : (p.restage).sequences = p.sequences := rfl
@[simp] theorem Part.restage_posts (p : Part) : (p.restage).posts = p.posts := rfl
@[simp] theorem Part.restage_postCounts (p : Part) : (p.restage).postCounts = p.postCounts := rfl
@[simp] theorem Part.restage_calls (p : Part) : (p.restage).calls = p.calls := rfl
@[simp] theorem Part.restage_lastCall (p : Part) : (p.restage).lastCall = p.lastCall := rfl
@[simp] theorem Part.restage_unmatched (p : Part) : (p.restage).unmatched = p.unmatched := rfl
@[simp] theorem Part.restage_day (p : Part) : (p.restage).day = p.day := rfl
@[simp] theorem Part.restage_fire (p : Part) : (p.restage).fire = p.fire := rfl
@[simp] theorem Part.restage_claim (p : Part) : (p.restage).claim = p.claim := rfl
@[simp] theorem Part.restage_tables (p : Part) : (p.restage).tables = p.tables := rfl
@[simp] theorem Part.restage_copies (p : Part) : (p.restage).copies = p.copies := rfl
@[simp] theorem Part.restage_committed (p : Part) : (p.restage).committed = p.committed := rfl
@[simp] theorem Part.restage_notices (p : Part) : (p.restage).notices = p.notices := rfl
@[simp] theorem Part.restage_faults (p : Part) : (p.restage).faults = p.faults := rfl
@[simp] theorem Part.restage_ahead (p : Part) : (p.restage).ahead = p.ahead := rfl

/-! ## `Part.countAgent` -/

@[simp] theorem Part.countAgent_own (p : Part) (c : Counter) : (p.countAgent c).own = p.own := rfl
@[simp] theorem Part.countAgent_beforeFirst (p : Part) (c : Counter) : (p.countAgent c).beforeFirst = p.beforeFirst := rfl
@[simp] theorem Part.countAgent_cycle (p : Part) (c : Counter) : (p.countAgent c).cycle = p.cycle := rfl
@[simp] theorem Part.countAgent_periodic (p : Part) (c : Counter) : (p.countAgent c).periodic = p.periodic := rfl
@[simp] theorem Part.countAgent_markCode (p : Part) (c : Counter) : (p.countAgent c).markCode = p.markCode := rfl
@[simp] theorem Part.countAgent_sent (p : Part) (c : Counter) : (p.countAgent c).sent = p.sent := rfl
@[simp] theorem Part.countAgent_portN (p : Part) (c : Counter) : (p.countAgent c).portN = p.portN := rfl
@[simp] theorem Part.countAgent_portS (p : Part) (c : Counter) : (p.countAgent c).portS = p.portS := rfl
@[simp] theorem Part.countAgent_portW (p : Part) (c : Counter) : (p.countAgent c).portW = p.portW := rfl
@[simp] theorem Part.countAgent_cooldown (p : Part) (c : Counter) : (p.countAgent c).cooldown = p.cooldown := rfl
@[simp] theorem Part.countAgent_hold (p : Part) (c : Counter) : (p.countAgent c).hold = p.hold := rfl
@[simp] theorem Part.countAgent_gates (p : Part) (c : Counter) : (p.countAgent c).gates = p.gates := rfl
@[simp] theorem Part.countAgent_orders (p : Part) (c : Counter) : (p.countAgent c).orders = p.orders := rfl
@[simp] theorem Part.countAgent_channels (p : Part) (c : Counter) : (p.countAgent c).channels = p.channels := rfl
@[simp] theorem Part.countAgent_toggles (p : Part) (c : Counter) : (p.countAgent c).toggles = p.toggles := rfl
@[simp] theorem Part.countAgent_stale (p : Part) (c : Counter) : (p.countAgent c).stale = p.stale := rfl
@[simp] theorem Part.countAgent_builds (p : Part) (c : Counter) : (p.countAgent c).builds = p.builds := rfl
@[simp] theorem Part.countAgent_moves (p : Part) (c : Counter) : (p.countAgent c).moves = p.moves := rfl
@[simp] theorem Part.countAgent_chain (p : Part) (c : Counter) : (p.countAgent c).chain = p.chain := rfl
@[simp] theorem Part.countAgent_park (p : Part) (c : Counter) : (p.countAgent c).park = p.park := rfl
@[simp] theorem Part.countAgent_slides (p : Part) (c : Counter) : (p.countAgent c).slides = p.slides := rfl
@[simp] theorem Part.countAgent_withheld (p : Part) (c : Counter) : (p.countAgent c).withheld = p.withheld := rfl
@[simp] theorem Part.countAgent_shutters (p : Part) (c : Counter) : (p.countAgent c).shutters = p.shutters := rfl
@[simp] theorem Part.countAgent_sequences (p : Part) (c : Counter) : (p.countAgent c).sequences = p.sequences := rfl
@[simp] theorem Part.countAgent_posts (p : Part) (c : Counter) : (p.countAgent c).posts = p.posts := rfl
@[simp] theorem Part.countAgent_postCounts (p : Part) (c : Counter) : (p.countAgent c).postCounts = p.postCounts := rfl
@[simp] theorem Part.countAgent_calls (p : Part) (c : Counter) : (p.countAgent c).calls = p.calls := rfl
@[simp] theorem Part.countAgent_lastCall (p : Part) (c : Counter) : (p.countAgent c).lastCall = p.lastCall := rfl
@[simp] theorem Part.countAgent_unmatched (p : Part) (c : Counter) : (p.countAgent c).unmatched = p.unmatched := rfl
@[simp] theorem Part.countAgent_day (p : Part) (c : Counter) : (p.countAgent c).day = p.day := rfl
@[simp] theorem Part.countAgent_fire (p : Part) (c : Counter) : (p.countAgent c).fire = p.fire := rfl
@[simp] theorem Part.countAgent_claim (p : Part) (c : Counter) : (p.countAgent c).claim = p.claim := rfl
@[simp] theorem Part.countAgent_tables (p : Part) (c : Counter) : (p.countAgent c).tables = p.tables := rfl
@[simp] theorem Part.countAgent_copies (p : Part) (c : Counter) : (p.countAgent c).copies = p.copies := rfl
@[simp] theorem Part.countAgent_committed (p : Part) (c : Counter) : (p.countAgent c).committed = p.committed := rfl
@[simp] theorem Part.countAgent_notices (p : Part) (c : Counter) : (p.countAgent c).notices = p.notices := rfl
@[simp] theorem Part.countAgent_faults (p : Part) (c : Counter) : (p.countAgent c).faults = p.faults := rfl
@[simp] theorem Part.countAgent_ahead (p : Part) (c : Counter) : (p.countAgent c).ahead = p.ahead := rfl

/-! ## `Part.stepSequence` -/

@[simp] theorem Part.stepSequence_own (p : Part) (i : Nat) : (p.stepSequence i).own = p.own := rfl
@[simp] theorem Part.stepSequence_beforeFirst (p : Part) (i : Nat) : (p.stepSequence i).beforeFirst = p.beforeFirst := rfl
@[simp] theorem Part.stepSequence_cycle (p : Part) (i : Nat) : (p.stepSequence i).cycle = p.cycle := rfl
@[simp] theorem Part.stepSequence_periodic (p : Part) (i : Nat) : (p.stepSequence i).periodic = p.periodic := rfl
@[simp] theorem Part.stepSequence_markCode (p : Part) (i : Nat) : (p.stepSequence i).markCode = p.markCode := rfl
@[simp] theorem Part.stepSequence_sent (p : Part) (i : Nat) : (p.stepSequence i).sent = p.sent := rfl
@[simp] theorem Part.stepSequence_portN (p : Part) (i : Nat) : (p.stepSequence i).portN = p.portN := rfl
@[simp] theorem Part.stepSequence_portS (p : Part) (i : Nat) : (p.stepSequence i).portS = p.portS := rfl
@[simp] theorem Part.stepSequence_portW (p : Part) (i : Nat) : (p.stepSequence i).portW = p.portW := rfl
@[simp] theorem Part.stepSequence_agent (p : Part) (i : Nat) : (p.stepSequence i).agent = p.agent := rfl
@[simp] theorem Part.stepSequence_cooldown (p : Part) (i : Nat) : (p.stepSequence i).cooldown = p.cooldown := rfl
@[simp] theorem Part.stepSequence_hold (p : Part) (i : Nat) : (p.stepSequence i).hold = p.hold := rfl
@[simp] theorem Part.stepSequence_gates (p : Part) (i : Nat) : (p.stepSequence i).gates = p.gates := rfl
@[simp] theorem Part.stepSequence_orders (p : Part) (i : Nat) : (p.stepSequence i).orders = p.orders := rfl
@[simp] theorem Part.stepSequence_channels (p : Part) (i : Nat) : (p.stepSequence i).channels = p.channels := rfl
@[simp] theorem Part.stepSequence_toggles (p : Part) (i : Nat) : (p.stepSequence i).toggles = p.toggles := rfl
@[simp] theorem Part.stepSequence_stale (p : Part) (i : Nat) : (p.stepSequence i).stale = p.stale := rfl
@[simp] theorem Part.stepSequence_builds (p : Part) (i : Nat) : (p.stepSequence i).builds = p.builds := rfl
@[simp] theorem Part.stepSequence_moves (p : Part) (i : Nat) : (p.stepSequence i).moves = p.moves := rfl
@[simp] theorem Part.stepSequence_chain (p : Part) (i : Nat) : (p.stepSequence i).chain = p.chain := rfl
@[simp] theorem Part.stepSequence_park (p : Part) (i : Nat) : (p.stepSequence i).park = p.park := rfl
@[simp] theorem Part.stepSequence_slides (p : Part) (i : Nat) : (p.stepSequence i).slides = p.slides := rfl
@[simp] theorem Part.stepSequence_withheld (p : Part) (i : Nat) : (p.stepSequence i).withheld = p.withheld := rfl
@[simp] theorem Part.stepSequence_shutters (p : Part) (i : Nat) : (p.stepSequence i).shutters = p.shutters := rfl
@[simp] theorem Part.stepSequence_sequences (p : Part) (i : Nat) : (p.stepSequence i).sequences = p.sequences := rfl
@[simp] theorem Part.stepSequence_posts (p : Part) (i : Nat) : (p.stepSequence i).posts = p.posts := rfl
@[simp] theorem Part.stepSequence_postCounts (p : Part) (i : Nat) : (p.stepSequence i).postCounts = p.postCounts := rfl
@[simp] theorem Part.stepSequence_calls (p : Part) (i : Nat) : (p.stepSequence i).calls = p.calls := rfl
@[simp] theorem Part.stepSequence_lastCall (p : Part) (i : Nat) : (p.stepSequence i).lastCall = p.lastCall := rfl
@[simp] theorem Part.stepSequence_unmatched (p : Part) (i : Nat) : (p.stepSequence i).unmatched = p.unmatched := rfl
@[simp] theorem Part.stepSequence_day (p : Part) (i : Nat) : (p.stepSequence i).day = p.day := rfl
@[simp] theorem Part.stepSequence_fire (p : Part) (i : Nat) : (p.stepSequence i).fire = p.fire := rfl
@[simp] theorem Part.stepSequence_claim (p : Part) (i : Nat) : (p.stepSequence i).claim = p.claim := rfl
@[simp] theorem Part.stepSequence_tables (p : Part) (i : Nat) : (p.stepSequence i).tables = p.tables := rfl
@[simp] theorem Part.stepSequence_copies (p : Part) (i : Nat) : (p.stepSequence i).copies = p.copies := rfl
@[simp] theorem Part.stepSequence_committed (p : Part) (i : Nat) : (p.stepSequence i).committed = p.committed := rfl
@[simp] theorem Part.stepSequence_faults (p : Part) (i : Nat) : (p.stepSequence i).faults = p.faults := rfl
@[simp] theorem Part.stepSequence_ahead (p : Part) (i : Nat) : (p.stepSequence i).ahead = p.ahead := rfl

/-! ## `Part.setPanel` -/

@[simp] theorem Part.setPanel_own (p : Part) (st : Station) (n : Nat) : (p.setPanel st n).own = p.own := rfl
@[simp] theorem Part.setPanel_beforeFirst (p : Part) (st : Station) (n : Nat) : (p.setPanel st n).beforeFirst = p.beforeFirst := rfl
@[simp] theorem Part.setPanel_cycle (p : Part) (st : Station) (n : Nat) : (p.setPanel st n).cycle = p.cycle := rfl
@[simp] theorem Part.setPanel_periodic (p : Part) (st : Station) (n : Nat) : (p.setPanel st n).periodic = p.periodic := rfl
@[simp] theorem Part.setPanel_markCode (p : Part) (st : Station) (n : Nat) : (p.setPanel st n).markCode = p.markCode := rfl
@[simp] theorem Part.setPanel_sent (p : Part) (st : Station) (n : Nat) : (p.setPanel st n).sent = p.sent := rfl
@[simp] theorem Part.setPanel_portN (p : Part) (st : Station) (n : Nat) : (p.setPanel st n).portN = p.portN := rfl
@[simp] theorem Part.setPanel_portS (p : Part) (st : Station) (n : Nat) : (p.setPanel st n).portS = p.portS := rfl
@[simp] theorem Part.setPanel_portW (p : Part) (st : Station) (n : Nat) : (p.setPanel st n).portW = p.portW := rfl
@[simp] theorem Part.setPanel_agent (p : Part) (st : Station) (n : Nat) : (p.setPanel st n).agent = p.agent := rfl
@[simp] theorem Part.setPanel_cooldown (p : Part) (st : Station) (n : Nat) : (p.setPanel st n).cooldown = p.cooldown := rfl
@[simp] theorem Part.setPanel_hold (p : Part) (st : Station) (n : Nat) : (p.setPanel st n).hold = p.hold := rfl
@[simp] theorem Part.setPanel_gates (p : Part) (st : Station) (n : Nat) : (p.setPanel st n).gates = p.gates := rfl
@[simp] theorem Part.setPanel_orders (p : Part) (st : Station) (n : Nat) : (p.setPanel st n).orders = p.orders := rfl
@[simp] theorem Part.setPanel_channels (p : Part) (st : Station) (n : Nat) : (p.setPanel st n).channels = p.channels := rfl
@[simp] theorem Part.setPanel_toggles (p : Part) (st : Station) (n : Nat) : (p.setPanel st n).toggles = p.toggles := rfl
@[simp] theorem Part.setPanel_stale (p : Part) (st : Station) (n : Nat) : (p.setPanel st n).stale = p.stale := rfl
@[simp] theorem Part.setPanel_builds (p : Part) (st : Station) (n : Nat) : (p.setPanel st n).builds = p.builds := rfl
@[simp] theorem Part.setPanel_moves (p : Part) (st : Station) (n : Nat) : (p.setPanel st n).moves = p.moves := rfl
@[simp] theorem Part.setPanel_chain (p : Part) (st : Station) (n : Nat) : (p.setPanel st n).chain = p.chain := rfl
@[simp] theorem Part.setPanel_park (p : Part) (st : Station) (n : Nat) : (p.setPanel st n).park = p.park := rfl
@[simp] theorem Part.setPanel_slides (p : Part) (st : Station) (n : Nat) : (p.setPanel st n).slides = p.slides := rfl
@[simp] theorem Part.setPanel_withheld (p : Part) (st : Station) (n : Nat) : (p.setPanel st n).withheld = p.withheld := rfl
@[simp] theorem Part.setPanel_shutters (p : Part) (st : Station) (n : Nat) : (p.setPanel st n).shutters = p.shutters := rfl
@[simp] theorem Part.setPanel_sequences (p : Part) (st : Station) (n : Nat) : (p.setPanel st n).sequences = p.sequences := rfl
@[simp] theorem Part.setPanel_posts (p : Part) (st : Station) (n : Nat) : (p.setPanel st n).posts = p.posts := rfl
@[simp] theorem Part.setPanel_postCounts (p : Part) (st : Station) (n : Nat) : (p.setPanel st n).postCounts = p.postCounts := rfl
@[simp] theorem Part.setPanel_calls (p : Part) (st : Station) (n : Nat) : (p.setPanel st n).calls = p.calls := rfl
@[simp] theorem Part.setPanel_lastCall (p : Part) (st : Station) (n : Nat) : (p.setPanel st n).lastCall = p.lastCall := rfl
@[simp] theorem Part.setPanel_unmatched (p : Part) (st : Station) (n : Nat) : (p.setPanel st n).unmatched = p.unmatched := rfl
@[simp] theorem Part.setPanel_day (p : Part) (st : Station) (n : Nat) : (p.setPanel st n).day = p.day := rfl
@[simp] theorem Part.setPanel_claim (p : Part) (st : Station) (n : Nat) : (p.setPanel st n).claim = p.claim := rfl
@[simp] theorem Part.setPanel_tables (p : Part) (st : Station) (n : Nat) : (p.setPanel st n).tables = p.tables := rfl
@[simp] theorem Part.setPanel_copies (p : Part) (st : Station) (n : Nat) : (p.setPanel st n).copies = p.copies := rfl
@[simp] theorem Part.setPanel_committed (p : Part) (st : Station) (n : Nat) : (p.setPanel st n).committed = p.committed := rfl
@[simp] theorem Part.setPanel_notices (p : Part) (st : Station) (n : Nat) : (p.setPanel st n).notices = p.notices := rfl
@[simp] theorem Part.setPanel_faults (p : Part) (st : Station) (n : Nat) : (p.setPanel st n).faults = p.faults := rfl
@[simp] theorem Part.setPanel_ahead (p : Part) (st : Station) (n : Nat) : (p.setPanel st n).ahead = p.ahead := rfl

/-! ## `Part.setPointer` -/

@[simp] theorem Part.setPointer_own (p : Part) : (p.setPointer).own = p.own := rfl
@[simp] theorem Part.setPointer_beforeFirst (p : Part) : (p.setPointer).beforeFirst = p.beforeFirst := rfl
@[simp] theorem Part.setPointer_cycle (p : Part) : (p.setPointer).cycle = p.cycle := rfl
@[simp] theorem Part.setPointer_periodic (p : Part) : (p.setPointer).periodic = p.periodic := rfl
@[simp] theorem Part.setPointer_markCode (p : Part) : (p.setPointer).markCode = p.markCode := rfl
@[simp] theorem Part.setPointer_sent (p : Part) : (p.setPointer).sent = p.sent := rfl
@[simp] theorem Part.setPointer_portN (p : Part) : (p.setPointer).portN = p.portN := rfl
@[simp] theorem Part.setPointer_portS (p : Part) : (p.setPointer).portS = p.portS := rfl
@[simp] theorem Part.setPointer_portW (p : Part) : (p.setPointer).portW = p.portW := rfl
@[simp] theorem Part.setPointer_agent (p : Part) : (p.setPointer).agent = p.agent := rfl
@[simp] theorem Part.setPointer_cooldown (p : Part) : (p.setPointer).cooldown = p.cooldown := rfl
@[simp] theorem Part.setPointer_hold (p : Part) : (p.setPointer).hold = p.hold := rfl
@[simp] theorem Part.setPointer_gates (p : Part) : (p.setPointer).gates = p.gates := rfl
@[simp] theorem Part.setPointer_orders (p : Part) : (p.setPointer).orders = p.orders := rfl
@[simp] theorem Part.setPointer_channels (p : Part) : (p.setPointer).channels = p.channels := rfl
@[simp] theorem Part.setPointer_toggles (p : Part) : (p.setPointer).toggles = p.toggles := rfl
@[simp] theorem Part.setPointer_stale (p : Part) : (p.setPointer).stale = p.stale := rfl
@[simp] theorem Part.setPointer_builds (p : Part) : (p.setPointer).builds = p.builds := rfl
@[simp] theorem Part.setPointer_moves (p : Part) : (p.setPointer).moves = p.moves := rfl
@[simp] theorem Part.setPointer_chain (p : Part) : (p.setPointer).chain = p.chain := rfl
@[simp] theorem Part.setPointer_park (p : Part) : (p.setPointer).park = p.park := rfl
@[simp] theorem Part.setPointer_slides (p : Part) : (p.setPointer).slides = p.slides := rfl
@[simp] theorem Part.setPointer_withheld (p : Part) : (p.setPointer).withheld = p.withheld := rfl
@[simp] theorem Part.setPointer_shutters (p : Part) : (p.setPointer).shutters = p.shutters := rfl
@[simp] theorem Part.setPointer_sequences (p : Part) : (p.setPointer).sequences = p.sequences := rfl
@[simp] theorem Part.setPointer_posts (p : Part) : (p.setPointer).posts = p.posts := rfl
@[simp] theorem Part.setPointer_postCounts (p : Part) : (p.setPointer).postCounts = p.postCounts := rfl
@[simp] theorem Part.setPointer_calls (p : Part) : (p.setPointer).calls = p.calls := rfl
@[simp] theorem Part.setPointer_lastCall (p : Part) : (p.setPointer).lastCall = p.lastCall := rfl
@[simp] theorem Part.setPointer_unmatched (p : Part) : (p.setPointer).unmatched = p.unmatched := rfl
@[simp] theorem Part.setPointer_fire (p : Part) : (p.setPointer).fire = p.fire := rfl
@[simp] theorem Part.setPointer_claim (p : Part) : (p.setPointer).claim = p.claim := rfl
@[simp] theorem Part.setPointer_tables (p : Part) : (p.setPointer).tables = p.tables := rfl
@[simp] theorem Part.setPointer_copies (p : Part) : (p.setPointer).copies = p.copies := rfl
@[simp] theorem Part.setPointer_committed (p : Part) : (p.setPointer).committed = p.committed := rfl
@[simp] theorem Part.setPointer_notices (p : Part) : (p.setPointer).notices = p.notices := rfl
@[simp] theorem Part.setPointer_faults (p : Part) : (p.setPointer).faults = p.faults := rfl
@[simp] theorem Part.setPointer_ahead (p : Part) : (p.setPointer).ahead = p.ahead := rfl

/-! ## `Part.setPlace` -/

@[simp] theorem Part.setPlace_own (p : Part) (i : Nat) (e : List Byte) : (p.setPlace i e).own = p.own := rfl
@[simp] theorem Part.setPlace_beforeFirst (p : Part) (i : Nat) (e : List Byte) : (p.setPlace i e).beforeFirst = p.beforeFirst := rfl
@[simp] theorem Part.setPlace_cycle (p : Part) (i : Nat) (e : List Byte) : (p.setPlace i e).cycle = p.cycle := rfl
@[simp] theorem Part.setPlace_periodic (p : Part) (i : Nat) (e : List Byte) : (p.setPlace i e).periodic = p.periodic := rfl
@[simp] theorem Part.setPlace_markCode (p : Part) (i : Nat) (e : List Byte) : (p.setPlace i e).markCode = p.markCode := rfl
@[simp] theorem Part.setPlace_sent (p : Part) (i : Nat) (e : List Byte) : (p.setPlace i e).sent = p.sent := rfl
@[simp] theorem Part.setPlace_portN (p : Part) (i : Nat) (e : List Byte) : (p.setPlace i e).portN = p.portN := rfl
@[simp] theorem Part.setPlace_portS (p : Part) (i : Nat) (e : List Byte) : (p.setPlace i e).portS = p.portS := rfl
@[simp] theorem Part.setPlace_portW (p : Part) (i : Nat) (e : List Byte) : (p.setPlace i e).portW = p.portW := rfl
@[simp] theorem Part.setPlace_agent (p : Part) (i : Nat) (e : List Byte) : (p.setPlace i e).agent = p.agent := rfl
@[simp] theorem Part.setPlace_cooldown (p : Part) (i : Nat) (e : List Byte) : (p.setPlace i e).cooldown = p.cooldown := rfl
@[simp] theorem Part.setPlace_hold (p : Part) (i : Nat) (e : List Byte) : (p.setPlace i e).hold = p.hold := rfl
@[simp] theorem Part.setPlace_gates (p : Part) (i : Nat) (e : List Byte) : (p.setPlace i e).gates = p.gates := rfl
@[simp] theorem Part.setPlace_orders (p : Part) (i : Nat) (e : List Byte) : (p.setPlace i e).orders = p.orders := rfl
@[simp] theorem Part.setPlace_channels (p : Part) (i : Nat) (e : List Byte) : (p.setPlace i e).channels = p.channels := rfl
@[simp] theorem Part.setPlace_toggles (p : Part) (i : Nat) (e : List Byte) : (p.setPlace i e).toggles = p.toggles := rfl
@[simp] theorem Part.setPlace_stale (p : Part) (i : Nat) (e : List Byte) : (p.setPlace i e).stale = p.stale := rfl
@[simp] theorem Part.setPlace_builds (p : Part) (i : Nat) (e : List Byte) : (p.setPlace i e).builds = p.builds := rfl
@[simp] theorem Part.setPlace_moves (p : Part) (i : Nat) (e : List Byte) : (p.setPlace i e).moves = p.moves := rfl
@[simp] theorem Part.setPlace_chain (p : Part) (i : Nat) (e : List Byte) : (p.setPlace i e).chain = p.chain := rfl
@[simp] theorem Part.setPlace_park (p : Part) (i : Nat) (e : List Byte) : (p.setPlace i e).park = p.park := rfl
@[simp] theorem Part.setPlace_slides (p : Part) (i : Nat) (e : List Byte) : (p.setPlace i e).slides = p.slides := rfl
@[simp] theorem Part.setPlace_withheld (p : Part) (i : Nat) (e : List Byte) : (p.setPlace i e).withheld = p.withheld := rfl
@[simp] theorem Part.setPlace_shutters (p : Part) (i : Nat) (e : List Byte) : (p.setPlace i e).shutters = p.shutters := rfl
@[simp] theorem Part.setPlace_sequences (p : Part) (i : Nat) (e : List Byte) : (p.setPlace i e).sequences = p.sequences := rfl
@[simp] theorem Part.setPlace_posts (p : Part) (i : Nat) (e : List Byte) : (p.setPlace i e).posts = p.posts := rfl
@[simp] theorem Part.setPlace_postCounts (p : Part) (i : Nat) (e : List Byte) : (p.setPlace i e).postCounts = p.postCounts := rfl
@[simp] theorem Part.setPlace_calls (p : Part) (i : Nat) (e : List Byte) : (p.setPlace i e).calls = p.calls := rfl
@[simp] theorem Part.setPlace_lastCall (p : Part) (i : Nat) (e : List Byte) : (p.setPlace i e).lastCall = p.lastCall := rfl
@[simp] theorem Part.setPlace_unmatched (p : Part) (i : Nat) (e : List Byte) : (p.setPlace i e).unmatched = p.unmatched := rfl
@[simp] theorem Part.setPlace_day (p : Part) (i : Nat) (e : List Byte) : (p.setPlace i e).day = p.day := rfl
@[simp] theorem Part.setPlace_fire (p : Part) (i : Nat) (e : List Byte) : (p.setPlace i e).fire = p.fire := rfl
@[simp] theorem Part.setPlace_claim (p : Part) (i : Nat) (e : List Byte) : (p.setPlace i e).claim = p.claim := rfl
@[simp] theorem Part.setPlace_copies (p : Part) (i : Nat) (e : List Byte) : (p.setPlace i e).copies = p.copies := rfl
@[simp] theorem Part.setPlace_committed (p : Part) (i : Nat) (e : List Byte) : (p.setPlace i e).committed = p.committed := rfl
@[simp] theorem Part.setPlace_notices (p : Part) (i : Nat) (e : List Byte) : (p.setPlace i e).notices = p.notices := rfl
@[simp] theorem Part.setPlace_faults (p : Part) (i : Nat) (e : List Byte) : (p.setPlace i e).faults = p.faults := rfl
@[simp] theorem Part.setPlace_ahead (p : Part) (i : Nat) (e : List Byte) : (p.setPlace i e).ahead = p.ahead := rfl

/-! ## `Part.modPort` -/

@[simp] theorem Part.modPort_own (p : Part) (q : PortId) (f : Port → Port) : (p.modPort q f).own = p.own := by cases q <;> rfl
@[simp] theorem Part.modPort_beforeFirst (p : Part) (q : PortId) (f : Port → Port) : (p.modPort q f).beforeFirst = p.beforeFirst := by cases q <;> rfl
@[simp] theorem Part.modPort_cycle (p : Part) (q : PortId) (f : Port → Port) : (p.modPort q f).cycle = p.cycle := by cases q <;> rfl
@[simp] theorem Part.modPort_periodic (p : Part) (q : PortId) (f : Port → Port) : (p.modPort q f).periodic = p.periodic := by cases q <;> rfl
@[simp] theorem Part.modPort_markCode (p : Part) (q : PortId) (f : Port → Port) : (p.modPort q f).markCode = p.markCode := by cases q <;> rfl
@[simp] theorem Part.modPort_sent (p : Part) (q : PortId) (f : Port → Port) : (p.modPort q f).sent = p.sent := by cases q <;> rfl
@[simp] theorem Part.modPort_agent (p : Part) (q : PortId) (f : Port → Port) : (p.modPort q f).agent = p.agent := by cases q <;> rfl
@[simp] theorem Part.modPort_cooldown (p : Part) (q : PortId) (f : Port → Port) : (p.modPort q f).cooldown = p.cooldown := by cases q <;> rfl
@[simp] theorem Part.modPort_hold (p : Part) (q : PortId) (f : Port → Port) : (p.modPort q f).hold = p.hold := by cases q <;> rfl
@[simp] theorem Part.modPort_gates (p : Part) (q : PortId) (f : Port → Port) : (p.modPort q f).gates = p.gates := by cases q <;> rfl
@[simp] theorem Part.modPort_orders (p : Part) (q : PortId) (f : Port → Port) : (p.modPort q f).orders = p.orders := by cases q <;> rfl
@[simp] theorem Part.modPort_channels (p : Part) (q : PortId) (f : Port → Port) : (p.modPort q f).channels = p.channels := by cases q <;> rfl
@[simp] theorem Part.modPort_toggles (p : Part) (q : PortId) (f : Port → Port) : (p.modPort q f).toggles = p.toggles := by cases q <;> rfl
@[simp] theorem Part.modPort_stale (p : Part) (q : PortId) (f : Port → Port) : (p.modPort q f).stale = p.stale := by cases q <;> rfl
@[simp] theorem Part.modPort_builds (p : Part) (q : PortId) (f : Port → Port) : (p.modPort q f).builds = p.builds := by cases q <;> rfl
@[simp] theorem Part.modPort_moves (p : Part) (q : PortId) (f : Port → Port) : (p.modPort q f).moves = p.moves := by cases q <;> rfl
@[simp] theorem Part.modPort_chain (p : Part) (q : PortId) (f : Port → Port) : (p.modPort q f).chain = p.chain := by cases q <;> rfl
@[simp] theorem Part.modPort_park (p : Part) (q : PortId) (f : Port → Port) : (p.modPort q f).park = p.park := by cases q <;> rfl
@[simp] theorem Part.modPort_slides (p : Part) (q : PortId) (f : Port → Port) : (p.modPort q f).slides = p.slides := by cases q <;> rfl
@[simp] theorem Part.modPort_withheld (p : Part) (q : PortId) (f : Port → Port) : (p.modPort q f).withheld = p.withheld := by cases q <;> rfl
@[simp] theorem Part.modPort_shutters (p : Part) (q : PortId) (f : Port → Port) : (p.modPort q f).shutters = p.shutters := by cases q <;> rfl
@[simp] theorem Part.modPort_sequences (p : Part) (q : PortId) (f : Port → Port) : (p.modPort q f).sequences = p.sequences := by cases q <;> rfl
@[simp] theorem Part.modPort_posts (p : Part) (q : PortId) (f : Port → Port) : (p.modPort q f).posts = p.posts := by cases q <;> rfl
@[simp] theorem Part.modPort_postCounts (p : Part) (q : PortId) (f : Port → Port) : (p.modPort q f).postCounts = p.postCounts := by cases q <;> rfl
@[simp] theorem Part.modPort_calls (p : Part) (q : PortId) (f : Port → Port) : (p.modPort q f).calls = p.calls := by cases q <;> rfl
@[simp] theorem Part.modPort_lastCall (p : Part) (q : PortId) (f : Port → Port) : (p.modPort q f).lastCall = p.lastCall := by cases q <;> rfl
@[simp] theorem Part.modPort_unmatched (p : Part) (q : PortId) (f : Port → Port) : (p.modPort q f).unmatched = p.unmatched := by cases q <;> rfl
@[simp] theorem Part.modPort_day (p : Part) (q : PortId) (f : Port → Port) : (p.modPort q f).day = p.day := by cases q <;> rfl
@[simp] theorem Part.modPort_fire (p : Part) (q : PortId) (f : Port → Port) : (p.modPort q f).fire = p.fire := by cases q <;> rfl
@[simp] theorem Part.modPort_claim (p : Part) (q : PortId) (f : Port → Port) : (p.modPort q f).claim = p.claim := by cases q <;> rfl
@[simp] theorem Part.modPort_tables (p : Part) (q : PortId) (f : Port → Port) : (p.modPort q f).tables = p.tables := by cases q <;> rfl
@[simp] theorem Part.modPort_copies (p : Part) (q : PortId) (f : Port → Port) : (p.modPort q f).copies = p.copies := by cases q <;> rfl
@[simp] theorem Part.modPort_committed (p : Part) (q : PortId) (f : Port → Port) : (p.modPort q f).committed = p.committed := by cases q <;> rfl
@[simp] theorem Part.modPort_notices (p : Part) (q : PortId) (f : Port → Port) : (p.modPort q f).notices = p.notices := by cases q <;> rfl
@[simp] theorem Part.modPort_faults (p : Part) (q : PortId) (f : Port → Port) : (p.modPort q f).faults = p.faults := by cases q <;> rfl
@[simp] theorem Part.modPort_ahead (p : Part) (q : PortId) (f : Port → Port) : (p.modPort q f).ahead = p.ahead := by cases q <;> rfl

/-! ## `Part.count` -/

@[simp] theorem Part.count_own (p : Part) (q : PortId) (c : Counter) : (p.count q c).own = p.own := by cases q <;> rfl
@[simp] theorem Part.count_beforeFirst (p : Part) (q : PortId) (c : Counter) : (p.count q c).beforeFirst = p.beforeFirst := by cases q <;> rfl
@[simp] theorem Part.count_cycle (p : Part) (q : PortId) (c : Counter) : (p.count q c).cycle = p.cycle := by cases q <;> rfl
@[simp] theorem Part.count_periodic (p : Part) (q : PortId) (c : Counter) : (p.count q c).periodic = p.periodic := by cases q <;> rfl
@[simp] theorem Part.count_markCode (p : Part) (q : PortId) (c : Counter) : (p.count q c).markCode = p.markCode := by cases q <;> rfl
@[simp] theorem Part.count_sent (p : Part) (q : PortId) (c : Counter) : (p.count q c).sent = p.sent := by cases q <;> rfl
@[simp] theorem Part.count_agent (p : Part) (q : PortId) (c : Counter) : (p.count q c).agent = p.agent := by cases q <;> rfl
@[simp] theorem Part.count_cooldown (p : Part) (q : PortId) (c : Counter) : (p.count q c).cooldown = p.cooldown := by cases q <;> rfl
@[simp] theorem Part.count_hold (p : Part) (q : PortId) (c : Counter) : (p.count q c).hold = p.hold := by cases q <;> rfl
@[simp] theorem Part.count_gates (p : Part) (q : PortId) (c : Counter) : (p.count q c).gates = p.gates := by cases q <;> rfl
@[simp] theorem Part.count_orders (p : Part) (q : PortId) (c : Counter) : (p.count q c).orders = p.orders := by cases q <;> rfl
@[simp] theorem Part.count_channels (p : Part) (q : PortId) (c : Counter) : (p.count q c).channels = p.channels := by cases q <;> rfl
@[simp] theorem Part.count_toggles (p : Part) (q : PortId) (c : Counter) : (p.count q c).toggles = p.toggles := by cases q <;> rfl
@[simp] theorem Part.count_stale (p : Part) (q : PortId) (c : Counter) : (p.count q c).stale = p.stale := by cases q <;> rfl
@[simp] theorem Part.count_builds (p : Part) (q : PortId) (c : Counter) : (p.count q c).builds = p.builds := by cases q <;> rfl
@[simp] theorem Part.count_moves (p : Part) (q : PortId) (c : Counter) : (p.count q c).moves = p.moves := by cases q <;> rfl
@[simp] theorem Part.count_chain (p : Part) (q : PortId) (c : Counter) : (p.count q c).chain = p.chain := by cases q <;> rfl
@[simp] theorem Part.count_park (p : Part) (q : PortId) (c : Counter) : (p.count q c).park = p.park := by cases q <;> rfl
@[simp] theorem Part.count_slides (p : Part) (q : PortId) (c : Counter) : (p.count q c).slides = p.slides := by cases q <;> rfl
@[simp] theorem Part.count_withheld (p : Part) (q : PortId) (c : Counter) : (p.count q c).withheld = p.withheld := by cases q <;> rfl
@[simp] theorem Part.count_shutters (p : Part) (q : PortId) (c : Counter) : (p.count q c).shutters = p.shutters := by cases q <;> rfl
@[simp] theorem Part.count_sequences (p : Part) (q : PortId) (c : Counter) : (p.count q c).sequences = p.sequences := by cases q <;> rfl
@[simp] theorem Part.count_posts (p : Part) (q : PortId) (c : Counter) : (p.count q c).posts = p.posts := by cases q <;> rfl
@[simp] theorem Part.count_postCounts (p : Part) (q : PortId) (c : Counter) : (p.count q c).postCounts = p.postCounts := by cases q <;> rfl
@[simp] theorem Part.count_calls (p : Part) (q : PortId) (c : Counter) : (p.count q c).calls = p.calls := by cases q <;> rfl
@[simp] theorem Part.count_lastCall (p : Part) (q : PortId) (c : Counter) : (p.count q c).lastCall = p.lastCall := by cases q <;> rfl
@[simp] theorem Part.count_unmatched (p : Part) (q : PortId) (c : Counter) : (p.count q c).unmatched = p.unmatched := by cases q <;> rfl
@[simp] theorem Part.count_day (p : Part) (q : PortId) (c : Counter) : (p.count q c).day = p.day := by cases q <;> rfl
@[simp] theorem Part.count_fire (p : Part) (q : PortId) (c : Counter) : (p.count q c).fire = p.fire := by cases q <;> rfl
@[simp] theorem Part.count_claim (p : Part) (q : PortId) (c : Counter) : (p.count q c).claim = p.claim := by cases q <;> rfl
@[simp] theorem Part.count_tables (p : Part) (q : PortId) (c : Counter) : (p.count q c).tables = p.tables := by cases q <;> rfl
@[simp] theorem Part.count_copies (p : Part) (q : PortId) (c : Counter) : (p.count q c).copies = p.copies := by cases q <;> rfl
@[simp] theorem Part.count_committed (p : Part) (q : PortId) (c : Counter) : (p.count q c).committed = p.committed := by cases q <;> rfl
@[simp] theorem Part.count_notices (p : Part) (q : PortId) (c : Counter) : (p.count q c).notices = p.notices := by cases q <;> rfl
@[simp] theorem Part.count_faults (p : Part) (q : PortId) (c : Counter) : (p.count q c).faults = p.faults := by cases q <;> rfl
@[simp] theorem Part.count_ahead (p : Part) (q : PortId) (c : Counter) : (p.count q c).ahead = p.ahead := by cases q <;> rfl

/-! ## Reading back what an update wrote -/

@[simp] theorem Part.port_modPort_same (p : Part) (q : PortId) (f : Port → Port) : (p.modPort q f).port q = f (p.port q) := by
  cases q <;> rfl

theorem Part.port_modPort_other (p : Part) (q x : PortId) (f : Port → Port) (h : x ≠ q) : (p.modPort q f).port x = p.port x := by
  cases q <;> cases x <;> first | rfl | exact absurd rfl h

/-- An entry numbered from 1 after `modifyAt`: changed at its own number, as before at every other. -/
theorem recordAt_modifyAt {α : Type} (l : List (Option α)) (k j : Nat) (f : α → α) :
    recordAt (modifyAt l k (Option.map f)) j = if j = k then (recordAt l j).map f else recordAt l j := by
  cases j with
  | zero => cases k <;> simp [recordAt]
  | succ j =>
    cases k with
    | zero => simp [recordAt, modifyAt]
    | succ k =>
      by_cases h : j = k
      · subst h
        cases hl : l[j]? <;> simp [recordAt, modifyAt, List.getD_eq_getElem?_getD, hl]
      · cases hl : l[j]? <;>
          simp [recordAt, modifyAt, List.getD_eq_getElem?_getD, hl, h, Ne.symm h]

/-- `modifyAt` keeps the length. -/
@[simp] theorem length_modifyAt {α : Type} (l : List α) (k : Nat) (f : α → α) : (modifyAt l k f).length = l.length := by
  unfold modifyAt
  split <;> simp

@[simp] theorem Part.slide_modSlide (p : Part) (k j : Nat) (f : SlideRecord → SlideRecord) :
    (p.modSlide k f).slide j = if j = k then (p.slide j).map f else p.slide j := recordAt_modifyAt ..

@[simp] theorem Part.shutterRec_modShutter (p : Part) (k j : Nat) (f : ShutterRecord → ShutterRecord) :
    (p.modShutter k f).shutterRec j = if j = k then (p.shutterRec j).map f else p.shutterRec j := recordAt_modifyAt ..

@[simp] theorem Part.post_modPost (p : Part) (k j : Nat) (f : Post → Post) :
    (p.modPost k f).post j = if j = k then (p.post j).map f else p.post j := recordAt_modifyAt ..

/-- A placed order is its record's pending order. -/
theorem Part.pendingOrder_placeOrder (p : Part) (r : RecordId) (o : Order) (c : Cls) (st : Station) :
    (p.placeOrder r o c st).pendingOrder r = some { record := r, target := st, order := o, cls := c, placed := p.cycle } := by
  unfold Part.pendingOrder Part.placeOrder
  rw [List.find?_append]
  have h : List.find? (fun x : PendingOrder => x.record = r) (List.filter (fun x => x.record ≠ r) p.orders) = none := by
    simp
  rw [h]
  simp

/-- A record has no pending order after its removal. -/
@[simp] theorem Part.pendingOrder_removeOrder (p : Part) (r : RecordId) : (p.removeOrder r).pendingOrder r = none := by
  simp [Part.pendingOrder, Part.removeOrder]

end Sys2Proof.Machine
end

