-- ==== Sys2Proof/WellFormed.lean ====
section
/-! DEFINITION. Which commands are well formed: every number an operand carries lies in the field that carries it on the
line, or names a record the part has. An ill-formed command stands for nothing a station, a console or the part can do. -/

namespace Sys2Proof

/-- A source is a station number (R15). -/
def From.wellFormed (f : From) : Bool := 1 ≤ f.source && f.source ≤ 127

/-- The source of a Manage frame is a station number (R15). -/
def Ctx.wellFormed (c : Ctx) : Bool := 1 ≤ c.source && c.source ≤ 127

/-- The place can exist: four slots a port, eight Agent Port slots, eight places a queue (R27, R28, R49). -/
def FramePlace.wellFormed : FramePlace → Bool
  | .slot _ i => i < 4
  | .agentSlot i => i < 8
  | .queue _ i => i < 8

/-- A value that one byte carries. -/
def isByte (n : Nat) : Bool := n < 256

/-- A value that two bytes carry. -/
def isPair (n : Nat) : Bool := n < 65536

/-- A value that three bytes carry. -/
def isTriple (n : Nat) : Bool := n < 16777216

namespace Instr

/-- Every operand lies in its field (12.1 to 12.5) or names a record that the part has. -/
def wellFormed : Instr → Bool
  | .powerUp strap _ => strap ≤ 7
  | .cycleStart _ => true
  | .alarmAsserted => true
  | .alarmReleased => true
  | .endOfPeriodicMark => true
  | .burstFrameSent _ => true
  | .frameReceived _ _ => true
  | .outputGrant _ => true
  | .agentPortSlotTaken => true
  | .frameAged place => place.wellFormed
  | .holdAgeExpired i => i < 4
  | .gateEffective _ => true
  | .trainingTimeout _ => true
  | .portSilent _ => true
  | .overcurrent => true
  | .cooldownExpired => true
  | .claim c => c.wellFormed
  | .release c => c.wellFormed
  | .force c => c.wellFormed
  | .read c object first => c.wellFormed && isByte object && isByte first
  | .load c table first data => c.wellFormed && isByte table && isByte first && data.length ≤ 21
  | .commit c table => c.wellFormed && isByte table
  | .beginService c => c.wellFormed
  | .setClock c second => c.wellFormed && isTriple second
  | .portEnable c port => c.wellFormed && isByte port
  | .portDisable c port => c.wellFormed && isByte port
  | .gateSet c cls => c.wellFormed && isByte cls
  | .gateClear c cls => c.wellFormed && isByte cls
  | .start c => c.wellFormed
  | .stop c => c.wellFormed
  | .clearTrip c => c.wellFormed
  | .openSlides c => c.wellFormed
  | .restore c => c.wellFormed
  | .clearFault c => c.wellFormed
  | .clearCounters c => c.wellFormed
  | .testPlay c post kind code repeats => c.wellFormed && isByte post && isByte kind && isByte code && isByte repeats
  | .reset c => c.wellFormed
  | .resetFrame f => f.wellFormed
  | .subscribe c conditions falling => c.wellFormed && isPair conditions && isByte falling
  | .unsubscribe c => c.wellFormed
  | .unknownOrder c code args => c.wellFormed && isByte code && (code = 0 || 24 ≤ code) && args.length ≤ 23
  | .chainPosition f position speed _ _ => f.wellFormed && isTriple position && isPair speed
  | .driveState f _ => f.wellFormed
  | .landingEdgeTrip f => f.wellFormed
  | .chainRecordStale => true
  | .clearingTimerExpired => true
  | .planCompleted => true
  | .poll f cycle => f.wellFormed && isPair cycle
  | .channelGrant => true
  | .retryRebuild channel => 1 ≤ channel && channel ≤ 12
  | .confirm f _ result => f.wellFormed && isByte result
  | .replyWindowExpired channel => 1 ≤ channel && channel ≤ 12
  | .slidePosition f _ => f.wellFormed
  | .slideTravelTimeout plane => 1 ≤ plane && plane ≤ 16
  | .slideStationLost plane => 1 ≤ plane && plane ≤ 16
  | .shutterPosition f _ => f.wellFormed
  | .shutterTravelTimeout entry => 1 ≤ entry && entry ≤ 24
  | .shutterStationLost entry => 1 ≤ entry && entry ≤ 24
  | .escapeHoldExpired compartment => 1 ≤ compartment && compartment ≤ 8
  | .dropNow f _ => f.wellFormed
  | .postReady f => f.wellFormed
  | .postDone f completed => f.wellFormed && isByte completed
  | .postHalted f completed => f.wellFormed && isByte completed
  | .presence f => f.wellFormed
  | .playDeadlineExpired post => 1 ≤ post && post ≤ 16
  | .postStationLost post => 1 ≤ post && post ≤ 16
  | .call f _ _ code _ rounds interval => f.wellFormed && isByte code && isByte rounds && isPair interval
  | .roundDue id => 1 ≤ id && id ≤ 255
  | .acknowledge f form id => f.wellFormed && isByte form && isByte id
  | .clockAdvance => true
  | .fireZoneAlarm f zone => f.wellFormed && isByte zone
  | .fireZoneClear f zone => f.wellFormed && isByte zone
  | .streamTimerExpired => true
  | .firePanelLost station => 1 ≤ station && station ≤ 127

end Instr

end Sys2Proof
end

