-- ==== Sys2Proof/Tests/Slice0.lean ====
section
/-! SUPPORT. Tests on fixed values: the well-formedness checks, the spec's worked examples, single commands with results taken from the
spec's rules, and for each statement with hypotheses a witness that something meets them. -/

namespace Sys2Proof.Tests

open Sys2Proof Sys2Proof.Machine

/-! ## Ill-formed commands -/

def office : Ctx := { port := .n, source := 30, cls := .signal, replyWanted := true }
def drive : From := { port := .n, source := 70 }
def panel : From := { port := .n, source := 5 }

theorem test_strap_has_three_bits : (Instr.powerUp 8 false).wellFormed = false := by decide
theorem test_place_is_a_slot : (Instr.frameAged (.slot .n 4)).wellFormed = false := by decide
theorem test_place_is_an_agent_slot : (Instr.frameAged (.agentSlot 8)).wellFormed = false := by decide
theorem test_place_is_in_a_queue : (Instr.frameAged (.queue .w 8)).wellFormed = false := by decide
theorem test_hold_place : (Instr.holdAgeExpired 4).wellFormed = false := by decide
theorem test_source_is_a_station : (Instr.claim { office with source := 128 }).wellFormed = false := by decide
theorem test_source_is_not_zero : (Instr.resetFrame { drive with source := 0 }).wellFormed = false := by decide
theorem test_object_is_a_byte : (Instr.read office 256 0).wellFormed = false := by decide
theorem test_load_fits_a_frame : (Instr.load office 1 0 (List.replicate 22 0#8)).wellFormed = false := by decide
theorem test_table_is_a_byte : (Instr.commit office 256).wellFormed = false := by decide
theorem test_second_has_three_bytes : (Instr.setClock office 16777216).wellFormed = false := by decide
theorem test_port_is_a_byte : (Instr.portEnable office 256).wellFormed = false := by decide
theorem test_class_is_a_byte : (Instr.gateSet office 256).wellFormed = false := by decide
theorem test_play_is_bytes : (Instr.testPlay office 1 0 1 256).wellFormed = false := by decide
theorem test_conditions_are_a_pair : (Instr.subscribe office 65536 0).wellFormed = false := by decide
theorem test_unknown_code_is_no_order : (Instr.unknownOrder office 23 []).wellFormed = false := by decide
theorem test_position_has_three_bytes : (Instr.chainPosition drive 16777216 0 .braked 0).wellFormed = false := by decide
theorem test_cycle_is_a_pair : (Instr.poll drive 65536).wellFormed = false := by decide
theorem test_channel_number : (Instr.retryRebuild 13).wellFormed = false := by decide
theorem test_plane_number : (Instr.slideTravelTimeout 17).wellFormed = false := by decide
theorem test_shutter_number : (Instr.shutterStationLost 25).wellFormed = false := by decide
theorem test_compartment_number : (Instr.escapeHoldExpired 9).wellFormed = false := by decide
theorem test_post_number : (Instr.playDeadlineExpired 0).wellFormed = false := by decide
theorem test_call_id : (Instr.roundDue 0).wellFormed = false := by decide
theorem test_panel_station : (Instr.firePanelLost 128).wellFormed = false := by decide

/-! ## Worked examples of the spec -/

/-- R8: the check word of the nine characters 123456789 is 29B1 hexadecimal. -/
theorem test_check_word : checkWord [0x31, 0x32, 0x33, 0x34, 0x35, 0x36, 0x37, 0x38, 0x39] = 0x29B1 := by decide +kernel

/-- R102's table of stopping distances. -/
theorem test_stopping_distances : stoppingDistance 500 125 = 21 ∧ stoppingDistance 500 400 = 176 ∧ stoppingDistance 100 625 = 1979 := by
  decide

/-- Section 6.3's example across the wrap: arc starts 100 and 1300 in a pitch of 2400. -/
theorem test_arc_of_two : setArc 2400 [100, 1300] = (100, 1300, 1200) := by decide

/-! ## The part of the witnesses -/

def bytesOf (ns : List Nat) : List Byte := ns.map byteOf

/-- A table of `n` entries of `size` bytes that begins with the given ones. -/
def rows (n size : Nat) (l : List (List Nat)) : Table := l.map bytesOf ++ List.replicate (n - l.length) (List.replicate size 0#8)

/-- Ten cabins on a loop of 24000 mm, pitch 2400; body 2150, margin 40 (so W is 170), run limit 400, creep 100, decel 500. -/
def chainRow : List Nat := [0, 93, 192, 10, 8, 102, 40, 1, 144, 100, 1, 244, 25, 0, 100, 30]

def demoTables : List Table :=
  [ List.replicate 128 [4#8],
    rows 32 7 [[2, 33, 128, 15, 16, 127, 0]],
    rows 4 2 [[70, 0], [5, 6], [9, 0], [30, 31]],
    [bytesOf chainRow],
    rows 16 7 [[81, 0, 4, 166, 3, 6, 10], [81, 0, 4, 171, 3, 6, 10], [83, 0, 4, 181, 3, 6, 10], [85, 0, 4, 196, 3, 2, 10]],
    rows 25 5 [[0, 20, 0, 0, 0], [51, 1, 1, 1, 10], [52, 1, 2, 2, 10], [53, 1, 3, 0, 5]],
    rows 16 1 [[1], [2], [5]],
    rows 16 3 [[64, 3, 1], [65, 2, 1], [67, 0, 0]],
    rows 48 7 [[1, 176, 0, 2, 3, 2, 3], [1, 87, 0, 3, 2, 0, 0]],
    rows 64 1 [[5], [6]],
    rows 12 9 [[1, 0, 0, 10, 1, 0, 3, 2, 1], [2, 0, 0, 12, 2, 0, 3, 1, 0]],
    [bytesOf [10, 1, 2, 2]],
    [bytesOf [1, 25, 25, 100, 3, 4, 0]],
    rows 5 4 [[30, 9, 0, 0], [30, 0, 0, 0]] ]

def idlePost : Post := { state := .idle, heard := true }
def upPort : Port := { state := .up }

/-- A part in service: the tables above committed, a chain at rest in Halted at position 0, every slide and shutter Open, posts 1 and 2
Idle and post 3 Disabled, station 30 in the claim cell. -/
def demo : Part :=
  { own := 120, beforeFirst := false, cycle := 9, periodic := true, portN := upPort, portS := upPort, portW := upPort
    chain := { record := { freshness := .fresh, echo := some .braked }, staged := { mode := .halted } }
    park := { arcStarts := [some 1230, some 1235, some 1245, some 1260] ++ List.replicate 12 none }
    slides := List.replicate 4 (some { state := .opened }) ++ List.replicate 12 none
    shutters := List.replicate 3 (some { state := .opened }) ++ List.replicate 21 none
    posts := [some idlePost, some idlePost, some { state := .disabled }] ++ List.replicate 13 none
    day := { mode := .trading, clockSet := true, second := 11, sub := 49, pointer := some 2 }
    claim := some 30, tables := demoTables, committed := List.replicate 14 true }

def demoS : State := { part := demo }

/-- The state a command leads to. -/
def out (i : Instr) (p : Part) : Part :=
  match exec i { part := p } with
  | .next t => t.part
  | _ => p

/-- Every command on every part leads to the state that `out` gives. -/
theorem exec_out (i : Instr) (p : Part) : exec i { part := p } = .next { part := out i p } := by
  obtain ⟨f, h⟩ := exec_acts i { part := p }
  unfold out
  rw [h]
  simp only [State.run]

/-- A step with one waiting command answers a next state. -/
theorem step_out (i : Instr) (p : Part) : step { part := p, pending := [i] } = .next { part := out i p } := exec_out i p

theorem wellOpen_of_any {p : Part} (h : (p.enabledPlanes.all fun k => (p.slide k).any fun r => r.state = .opened) = true) : p.wellOpen := by
  intro k hk
  have g := List.all_eq_true.mp h k hk
  cases e : p.slide k with
  | none => simp [e] at g
  | some r => exact ⟨r, rfl, by simpa [e] using g⟩

theorem demo_wellOpen : demo.wellOpen := wellOpen_of_any (by decide +kernel)

/-! ## Witnesses: steps and laws -/

theorem witness_PowerUpStartsCycleZero : (7 : Nat) ≤ 7 := Nat.le_refl 7

/-- A running chain: the staged permit has stage Run. -/
def running : Part := { demo with chain := { demo.chain with mode := .running, staged := { stage := .run, mode := .running } } }

theorem witness_EveryStepKeepsThePermitLaw :
    running.PermitLaw ∧ running.chain.staged.stage ≠ .none ∧
    step { part := running, pending := [.stop office] } = .next { part := out (.stop office) running } :=
  have open_ : running.wellOpen := wellOpen_of_any (by decide +kernel)
  ⟨⟨fun _ => ⟨open_, Or.inl rfl⟩, by decide +kernel, rfl, fun h => absurd ⟨open_, Or.inl rfl⟩ h, fun _ => ⟨rfl, rfl⟩⟩, by decide, step_out _ _⟩

/-- A parked chain at 1300, where planes 1 and 2 are clear, with the Closes of their station pending. -/
def closing : Part :=
  { demo with
    chain := { demo.chain with
      record := { demo.chain.record with x := 1300 }, mode := .parked, parkSet := [1, 2, 3, 4], staged := { mode := .parked } }
    orders := [{ record := .slide 1, target := 81, order := .slideClose, cls := .safety, placed := 9 }] }

theorem witness_EveryStepKeepsTheCloseLaw :
    closing.CloseLaw ∧ closing.orders ≠ [] ∧
    step { part := closing, pending := [.driveState drive .fault] } = .next { part := out (.driveState drive .fault) closing } :=
  ⟨by unfold Part.CloseLaw; decide +kernel, by decide, step_out _ _⟩

def aFrame : Frame := builtFrame 45 60 .service 12 false false [1#8]

/-- A held frame that may go out on Port S, with the Service gate closed and effective. -/
def holding : Part :=
  { demo with
    hold := [{ frame := aFrame, arrival := .n, condition := .tradingHours, route := .port .s, age := 3, eligible := true, target := [.s] }]
    gates := { signalSet := true, signalEffective := true } }

theorem witness_EveryStepKeepsTheRelayLaw :
    holding.RelayLaw ∧ step { part := holding, pending := [.outputGrant .s] } = .next { part := out (.outputGrant .s) holding } := by
  refine ⟨⟨?_, by decide, by decide⟩, step_out _ _⟩
  intro e he
  obtain rfl := List.mem_singleton.mp he
  exact ⟨⟨fun _ => ⟨Or.inl rfl, [.s], rfl⟩, fun _ => rfl⟩, fun _ => rfl⟩

/-- Zone 1 in alarm and the store in Evacuation. -/
def burning : Part :=
  { demo with
    day := { demo.day with mode := .evacuation, alarm := true }
    fire := { zones := [1], affected := [1], cause := some (.report 1), startCycle := some 9, streamOn := true, streamTimer := 500,
              nextIsPattern := true }
    sequences := { state := .sequencing, cause := some .evacuation, group := 1, since := 9, timer := 1000 } :: List.replicate 7 {} }

theorem witness_EveryStepKeepsTheFireLaw :
    burning.FireLaw ∧
    step { part := burning, pending := [.fireZoneClear panel 1] } = .next { part := out (.fireZoneClear panel 1) burning } :=
  ⟨by unfold Part.FireLaw; decide +kernel, step_out _ _⟩

/-- Channel 1 waits for the Confirm to a Close; plane 3 has one pending. -/
def sendingClose : Channel :=
  { state := .awaiting, record := .slide 1, target := 81, order := .slideClose, triesLeft := 2, transmitted := true, timer := 4, build := 1,
    stage := .sent }

def ordering : Part :=
  { demo with
    channels := sendingClose :: List.replicate 11 {}
    orders := [{ record := .slide 3, target := 83, order := .slideOpen, cls := .safety, placed := 9 }] }

theorem witness_EveryStepKeepsTheChannelLaw :
    ordering.ChannelLaw ∧ step { part := ordering, pending := [.channelGrant] } = .next { part := out .channelGrant ordering } :=
  ⟨by unfold Part.ChannelLaw; decide +kernel, step_out _ _⟩

def queued (c : Cls) : Queued := { frame := builtFrame 45 60 c 12 false false [], builder := .station, arrival := .port .n, age := 0 }

/-- Port S with a full queue in class order. -/
def crowded : Part := { demo with portS := { upPort with queue := queued .safety :: List.replicate 7 (queued .service), burstLeft := 10 } }

theorem witness_EveryStepKeepsTheCapacityLaw :
    crowded.CapacityLaw ∧ step { part := crowded, pending := [.outputGrant .s] } = .next { part := out (.outputGrant .s) crowded } := by
  refine ⟨⟨fun q => ?_, by decide +kernel, by decide, by decide⟩, step_out _ _⟩
  cases q <;> decide +kernel

def staffItem : Item := { content := .pattern 1, source := .call 4, repeats := 2, enqueued := 9 }
def stepItem : Item := { content := .phrase 1, source := .step 2, repeats := 1, enqueued := 9 }

def aCall : Call :=
  { id := 4, origin := 44, replyClass := .signal, replyToggle := false, originalCode := 1, code := 1, posts := 3#16, given := 2,
    remaining := 2, interval := 5, nextRound := 1, escalated := false, completed := 0, lost := 0 }

/-- Post 1 plays a step's phrase with a Staff item of the call waiting; post 2 has its Play order pending. -/
def playing : Part :=
  { demo with
    posts := [some { idlePost with state := .playing, current := some stepItem, phase := .confirmed, deadline := 260,
                                   lookup := some (.phrase 5), queue := [staffItem] },
              some { idlePost with current := some staffItem, phase := .pending, lookup := some (.pattern 0xB000#16 2) },
              some { state := .disabled }] ++ List.replicate 13 none
    calls := [aCall]
    orders := [{ record := .post 2, target := 65, order := .playPattern 0xB000#16 2 2, cls := .signal, placed := 9 }] }

theorem playing_orderLaw : playing.OrderLaw := by
  change ∀ k ∈ postNumbers, ∀ r ∈ playing.post k, _
  decide +kernel

theorem playing_playLaw : playing.PlayLaw := by
  refine ⟨by decide, by decide +kernel, ?_, ?_⟩
  · change ∀ k ∈ postNumbers, ∀ r ∈ playing.post k, (r.state = .playing → ∃ it ∈ r.current, _) ∧
      (_ → _ → ∀ it ∈ r.current, _) ∧ _ ∧ _ ∧ _
    decide +kernel
  · intro o ho k hk _
    obtain rfl := List.mem_singleton.mp ho
    obtain rfl : k = 2 := by simpa using hk.symm
    exact ⟨by decide, _, rfl, rfl⟩

theorem witness_EveryStepKeepsTheOrderLaw :
    playing.OrderLaw ∧ step { part := playing, pending := [.postDone { port := .n, source := 64 } 1] } =
      .next { part := out (.postDone { port := .n, source := 64 } 1) playing } :=
  ⟨playing_orderLaw, step_out _ _⟩

theorem witness_EveryStepKeepsThePlayLaw :
    playing.OrderLaw ∧ playing.PlayLaw ∧ step { part := playing, pending := [.postDone { port := .n, source := 64 } 1] } =
      .next { part := out (.postDone { port := .n, source := 64 } 1) playing } :=
  ⟨playing_orderLaw, playing_playLaw, step_out _ _⟩

theorem witness_EveryStepKeepsTheStaffLaw :
    playing.StaffLaw ∧ step { part := playing, pending := [.acknowledge drive 0 4] } = .next { part := out (.acknowledge drive 0 4) playing } := by
  refine ⟨?_, step_out _ _⟩
  intro k hk r hr it hit id hid
  have h : ∀ k ∈ postNumbers, ∀ r ∈ playing.post k, ∀ it ∈ r.queue, it = staffItem := by decide +kernel
  obtain rfl := h k hk r hr it hit
  obtain rfl : 4 = id := by simpa [staffItem] using hid
  exact ⟨aCall, by decide, rfl⟩

/-- A part with a good pending copy of the Phrase Table. -/
def loaded : Part := { demo with copies := (List.replicate 14 none).set 9 (some (rows 64 1 [[7]])) }

theorem witness_TablesChangeByTheClaimHolderOnly :
    exec (.commit office 10) { part := loaded } = .next { part := out (.commit office 10) loaded } ∧
    (out (.commit office 10) loaded).tables ≠ loaded.tables :=
  ⟨exec_out _ _, by decide +kernel⟩

/-! ## Witnesses: the Management Agent. Each conjunct is the hypothesis of one clause, at a state and operands that meet it. -/

def stranger : Ctx := { office with source := 44 }
def other : Ctx := { office with source := 31 }
def brigade : Ctx := { office with source := 9 }
def unclaimed : Part := { demo with claim := none }

theorem witness_ClaimCellFollowsTheOrders :
    (unclaimed.claim = none ∧ unclaimed.role office.source = some .office) ∧
    (unclaimed.claim = none ∧ unclaimed.isCommitted tRoles = true ∧ unclaimed.role stranger.source = none) ∧
    demo.claim = some office.source ∧ (demo.claim = some 30 ∧ 30 ≠ other.source) ∧
    demo.role brigade.source = some .brigade ∧ demo.role other.source ≠ some .brigade := by decide +kernel

theorem witness_OrdersNeedTheClaimCell :
    manageOrder (.gateSet other 2) = some (other, .gateSet 2) ∧ (ManageOrder.gateSet 2).fromAny = false ∧
    demo.claim ≠ some other.source := by decide +kernel

theorem witness_ReadAnswersAndChangesNothing :
    (15 ≤ 32 ∧ 32 ≤ 32) ∧ (47 ≤ 47 ∧ 47 ≤ 63) ∧ 89 ≤ 89 := by decide

theorem witness_LoadWritesThePendingCopy :
    demo.claim = some office.source ∧
    (isTable 3 = true ∧ 3 % entrySize 3 ≠ 0) ∧
    (2 % entrySize 3 = 0 ∧ ¬(isTable 3 = true ∧ entryLow 3 ≤ 5 ∧ 5 + 2 / entrySize 3 ≤ entryHigh 3 + 1)) ∧
    isTable 15 = false ∧
    (2 % entrySize 3 = 0 ∧ isTable 3 = true ∧ entryLow 3 ≤ 4 ∧ 4 + 2 / entrySize 3 ≤ entryHigh 3 + 1 ∧
      ((demo.copies.getD 2 none).getD (demo.table 3)).length = (tableIn powerUpTables 3).length ∧ demo.copies.length = 14) := by
  decide +kernel

theorem witness_CommitPutsTheCopyInForce :
    loaded.claim = some office.source ∧ isTable 10 = true ∧ loaded.copies.getD 9 none = some (rows 64 1 [[7]]) ∧
    loaded.commitTest 10 (rows 64 1 [[7]]) = none := by decide +kernel

/-- A part with a bad pending copy of the Phrase Table and one of the Chain Parameters, the chain running. -/
def badlyLoaded : Part :=
  { running with copies := ((List.replicate 14 none).set 9 (some (rows 64 1 [[61]]))).set 3 (some [bytesOf chainRow]) }

theorem witness_RefusedCommitChangesNothing :
    badlyLoaded.claim = some office.source ∧ isTable 0 = false ∧ isTable 15 = false ∧
    (isTable 14 = true ∧ badlyLoaded.copies.getD 13 none = none) ∧
    (badlyLoaded.copies.getD 9 none = some (rows 64 1 [[61]]) ∧ badlyLoaded.commitTest 10 (rows 64 1 [[61]]) = some .refusedRange) ∧
    (badlyLoaded.copies.getD 3 none = some [bytesOf chainRow] ∧ badlyLoaded.chain.mode = .running) := by decide +kernel

def chainLoaded : Part := { demo with copies := (List.replicate 14 none).set 3 (some [bytesOf chainRow]) }

theorem witness_ChainCommitForgetsThePosition :
    chainLoaded.claim = some office.source ∧ chainLoaded.tables.length = 14 ∧ chainLoaded.committed.length = 14 ∧
    chainLoaded.copies.getD 3 none = some [bytesOf chainRow] ∧ chainLoaded.commitTest 4 [bytesOf chainRow] = none := by decide +kernel

/-- The same part before its service, with zone 1 active where `zones` says so. -/
def early (zones : List Nat) (alarm : Bool) : Part :=
  { demo with day := { demo.day with mode := .unloaded, alarm }, fire := { zones } }

theorem witness_BeginServiceEntersTheDay :
    demo.claim = some office.source ∧ demo.day.mode ≠ .unloaded ∧
    ({ early [] false with committed := (List.replicate 14 true).set 11 false } : Part).isCommitted 12 = false ∧
    (∀ id ∈ [3, 4, 5, 8, 12], (early [] false).isCommitted id = true) ∧
    ((early [] false).day.mode = .unloaded ∧ (early [] false).fire.zones = [] ∧ (early [] false).day.alarm = false) ∧
    (early [1] false).fire.zones ≠ [] ∧ (early [] true).day.alarm = true := by decide +kernel

theorem witness_SetClockSetsTheDay :
    demo.claim = some office.source ∧ 86400 ≤ 86400 ∧ 86399 < 86400 ∧ (early [] false).day.mode = .unloaded ∧
    burning.day.mode = .evacuation ∧ (demo.day.mode ≠ .unloaded ∧ demo.day.mode ≠ .evacuation) := by decide +kernel

/-- Port W in a given state with a cooldown count, and a frame for Port N waiting at Port S. -/
def spur (st : PortState) (cooldown : Nat) : Part :=
  { demo with
    portW := { state := st }, cooldown
    portS := { upPort with slots := [{ frame := aFrame, builder := .station, target := [.n], age := 25, arrived := 0 }] } }

theorem witness_PortOrdersMoveThePort :
    (spur .off 0).claim = some office.source ∧ (spur .off 0).portW.state = .off ∧
    ((spur .faulted 0).portW.state = .faulted ∧ (spur .faulted 0).cooldown = 0) ∧
    ((spur .faulted 1).portW.state = .faulted ∧ (spur .faulted 1).cooldown ≠ 0) ∧
    (spur .silent 0).portW.state = .silent ∧
    ((spur .up 0).portN.state.live = true ∧ PortId.n = office.port) ∧
    ((spur .up 0).portW.state.live = true ∧ PortId.w ≠ office.port ∧ (spur .up 0).portW.queue = [] ∧
      ∀ sl ∈ (spur .up 0).portS.slots, sl.target ≠ [] ∧ PortId.w ∉ sl.target) := by decide +kernel

theorem witness_GatesFollowTheirSettings : demo.claim = some office.source ∧ (1 : Nat) ≠ 2 ∧ (4 : Nat) ≠ 3 := by decide +kernel

def tripped (v : Nat) : Part :=
  { demo with chain := { demo.chain with record := { demo.chain.record with v }, mode := .tripped, staged := { mode := .tripped } } }

theorem witness_StartAndClearTrip :
    demo.claim = some office.source ∧
    (demo.chain.mode = .halted ∧ demo.wellOpen ∧ demo.chain.record.freshness = .fresh ∧ demo.day.mode = .trading) ∧
    demo.driveStation = some 70 ∧ running.chain.mode = .running ∧
    ((tripped 0).chain.mode = .tripped ∧ (tripped 0).chain.record.v = 0 ∧ (tripped 0).chain.record.echo ≠ some .fault ∧
      (tripped 0).wantedSet = [] ∧ (tripped 0).chain.armed = false) ∧
    ((tripped 1).chain.mode ≠ .running ∧ (tripped 1).chain.record.v ≠ 0) :=
  ⟨by decide, ⟨rfl, demo_wellOpen, rfl, rfl⟩, by decide +kernel, by decide, by decide +kernel, by decide⟩

theorem witness_StopBringsTheChainToRest :
    running.claim = some office.source ∧ running.chain.mode = .running ∧
    ({ running with chain := { running.chain with mode := .lastCall } } : Part).chain.mode = .lastCall ∧
    (demo.chain.mode ≠ .running ∧ demo.chain.mode ≠ .lastCall) := by decide

/-- Plane 1's slide Closed, plane 2's with an Open already ordered, plane 4 disabled. -/
def shutSlides : Part :=
  { demo with slides := [some { state := .closed }, some { state := .opening, move := some .openMove, timer := 500 },
                         some { state := .opened }, some { state := .closed }] ++ List.replicate 12 none }

theorem witness_OpenSlidesOrdersTheWellOpen :
    shutSlides.claim = some office.source ∧ burning.day.mode = .evacuation ∧ shutSlides.day.mode = .trading ∧
    (1 ∈ shutSlides.enabledPlanes ∧ shutSlides.slide 1 = some { state := .closed }) ∧ 4 ∉ shutSlides.enabledPlanes := by decide +kernel

/-- The fire out: the evacuation may be ended, into Trading at the step reached last. -/
def burntOut : Part :=
  { burning with day := { burning.day with alarm := false }, fire := { burning.fire with zones := [] }
                 shutters := [some { state := .lowered }, some { state := .paused }, some { state := .opened }] ++ List.replicate 21 none }

theorem witness_RestoreEndsTheEvacuation :
    burntOut.claim = some office.source ∧
    (burntOut.day.mode = .evacuation ∧ burntOut.day.alarm = false ∧ burntOut.fire.zones = []) ∧
    (burntOut.computedMode = .trading ∧ 1 ∈ shutterNumbers ∧ burntOut.shutterRec 1 = some { state := .lowered }) ∧
    demo.day.mode ≠ .evacuation := by decide +kernel

theorem witness_FaultsAndCountersAreCleared :
    demo.claim = some office.source ∧ (∀ i ∈ placeNumbers, i ≠ 1 → (demo.place i).station = 0) ∧
    ∀ i ∈ placeNumbers, (({ demo with tables := demoTables.set 13 (rows 5 4 []) } : Part).place i).station = 0 := by decide +kernel

theorem witness_TestPlayHandsInOneItem :
    demo.claim = some office.source ∧ ¬(1 ≤ 17 ∧ 17 ≤ 16) ∧ ¬(1 ≤ 49 ∧ 49 ≤ 48) ∧ (1 ≤ 48 ∧ 48 ≤ 48 ∧ 1 ≤ 15 ∧ 15 ≤ 15) ∧
    burning.day.mode = .evacuation ∧ demo.post 3 = some { state := .disabled } ∧
    (demo.post 1 = some idlePost ∧
      demo.lookUp { content := .pattern 1, source := .test, repeats := 15, enqueued := 9 } =
        some (.pattern 0xB000#16 2, .playPattern 0xB000#16 2 15)) ∧
    (∃ r ∈ playing.post 1, r.state = .playing ∧ r.queue.length < 8 ∧ ∀ x ∈ r.queue, x.source ≠ .test) ∧ demo.post 16 = none := by
  decide +kernel

theorem witness_WarmResetBringsEveryBlockBack :
    demo.claim = some office.source ∧ demo.day.mode ≠ .evacuation ∧
    (burning.day.mode = .evacuation ∧ burning.brigade ≠ some office.source) ∧
    (30 ∈ ({ demo with tables := demoTables.set 13 (rows 5 4 [[30, 0, 0, 0]]) } : Part).resetList) ∧ 44 ∉ demo.resetList := by decide +kernel

theorem witness_SubscriptionsFillThePlaces :
    demo.claim = some office.source ∧ (demo.place 1).station = office.source ∧
    ((∀ j ∈ placeNumbers, (demo.place j).station ≠ other.source) ∧ (demo.place 2).station = 0 ∧ (demo.place 1).station ≠ 0) ∧
    (∀ j ∈ placeNumbers,
      (({ demo with tables := demoTables.set 13 (rows 5 4 [[], [1, 0, 0, 0], [2, 0, 0, 0], [3, 0, 0, 0], [4, 0, 0, 0]]) } : Part).place j).station
        ≠ 0) := by decide +kernel

/-! ## Witnesses: the line cycle, the ports and the Relay -/

/-- Ports at the edges of their counts: N one training cycle before Silent, S one silent cycle before Silent. -/
def fading : Part :=
  { demo with
    portN := { state := .training, training := 10, silence := 9 }
    portS := { upPort with silence := 24, slots := [{ frame := aFrame, builder := .station, target := [.w], age := 0, arrived := 9 }] } }

theorem witness_CycleStartOpensTheCycle :
    fading.beforeFirst = false ∧ fading.portN.state.live = true ∧ (fading.portN.state = .training ∧ 10 ≤ fading.portN.training) ∧
    (fading.portS.state = .up ∧ fading.silenceLimit ≤ min 255 (fading.portS.silence + 1)) ∧
    (({} : Port).state = .training ∧ ({} : Port).training < 10) ∧ fading.portW.silence ≤ 255 ∧
    (demo.day.clockSet = true ∧ Ahead.clock ∉ demo.ahead ∧ demo.day.sub = 49) := by decide +kernel

/-- A moving chain without its report in this periodic part, twice missed before where `misses` is 2, and a Poll waiting. -/
def unreported (misses : Nat) : Part :=
  { demo with
    chain := { demo.chain with record := { demo.chain.record with x := 23995, v := 400, misses }
                               waitingPoll := some { port := .n, source := 70, cycle := 9 } }
    tables := demoTables.set 12 [bytesOf [1, 25, 25, 100, 3, 4, 1]] }

theorem witness_PeriodicPartEnds :
    (unreported 0).periodic = true ∧ ({ demo with periodic := false } : Part).periodic = false ∧
    ((unreported 1).chain.reportTaken = false ∧ (unreported 1).chain.record.freshness = .fresh ∧ (unreported 1).chain.record.misses < 2 ∧
      (unreported 1).chainParams = some (chainParamsOf [bytesOf chainRow])) ∧
    2 ≤ (unreported 2).chain.record.misses ∧ ((unreported 0).chain.waitingPoll).isSome = true ∧
    (unreported 0).portN.state.live = true ∧ ({ demo.chain with reportTaken := true } : Chain).reportTaken ≠ false := by decide +kernel

def orderCopy : Queued :=
  { frame := builtFrame 120 81 .safety kindOrder false true [3#8], builder := .channel 1 1, arrival := .agent, age := 25 }

/-- Port N's burst sends a station's frame, Port S's an order of channel 1, whose last copy also waits in Port W's queue; in `st` the
channel waits for its first transmission. -/
def bursting (st : ChannelState) : Part :=
  { demo with
    periodic := false
    portN := { upPort with sending := some (queued .service), queue := [queued .service], burstLeft := 1 }
    portS := { upPort with sending := some orderCopy }
    portW := { upPort with queue := [orderCopy, { queued .service with age := 24 }, { queued .service with age := 25 }] }
    channels := { sendingClose with state := st, transmitted := false, timer := 0, stage := .unsent } :: List.replicate 11 {} }

theorem witness_BurstGoesOn :
    demo.portN.sending = none ∧ (bursting .sending).portN.sending = some (queued .service) ∧
    ((bursting .sending).portS.sending = some orderCopy ∧ orderCopy.builder = .channel 1 1 ∧
      ((bursting .sending).channel 1).build = 1 ∧ ((bursting .sending).channel 1).stage = .unsent ∧
      ((bursting .sending).channel 1).state = .sending) ∧
    ((bursting .halting).channel 1).state = .halting ∧ (∀ n ∈ [0, 1], (queued .service).builder ≠ .channel n n) := by decide +kernel

/-- The bytes of a frame for `dest` from station 33 or 60. -/
def wire (dest source : Nat) (c : Cls) (kind : Nat) (pl : List Nat) : List Byte :=
  frameBytes (withCheck { replyWanted := false, dest, toggle := false, source, cls := c, kind, spare := 0, payload := bytesOf pl, check := 0 })

theorem witness_FaultyFramesAreCounted :
    ({ state := .faulted } : Port).state = .faulted ∧ demo.portN.state.live = true ∧
    (let bs := (wire 45 60 .service 12 [1]).set 4 2#8
     2 ≤ bs.length ∧ checkWord (bs.take (bs.length - 2)) ≠ pairAt bs (bs.length - 2)) ∧
    (let bs := wire 45 120 .service 12 [1]
     checkWord (bs.take (bs.length - 2)) = pairAt bs (bs.length - 2) ∧ byteAt bs 1 % 128 = demo.own) ∧
    (let bs := wire 45 60 .service 12 (List.replicate 25 1)
     checkWord (bs.take (bs.length - 2)) = pairAt bs (bs.length - 2) ∧ ¬byteAt bs 3 ≤ 24) := by decide +kernel

/-- A part whose Route Table sends station 45 to Port S, 46 nowhere, 47 to Port N and 48 to Port W, which is Silent. -/
def routed : Part :=
  { demo with
    portW := { state := .silent }
    tables := demoTables.set 0 (((((List.replicate 128 [4#8]).set 45 [2#8]).set 46 [0#8]).set 47 [1#8]).set 48 [3#8]) }

theorem witness_TransitFramesAreAccepted :
    (∀ d ∈ [0, 45, 46, 47, 48, 49],
      checkPasses (wire d 60 .service 12 [1]) = true ∧ formPasses 120 (wire d 60 .service 12 [1]) = true ∧
      (let f := parseFrame (wire d 60 .service 12 [1])
       partOnlyKind f.kind = false ∧ f.dest = d ∧ d ≠ routed.own ∧ routed.tapped f = false ∧ routed.gatedOut f = false ∧
       passAction (routed.table tPass) f routed.day.mode = .pass)) ∧
    (let f := parseFrame (wire 45 33 .service 12 [1]); passAction (routed.table tPass) f routed.day.mode = .drop) ∧
    routed.route 45 = .port .s ∧ routed.route 46 = .none ∧ routed.route 47 = .port .n ∧
    (routed.route 48 = .port .w ∧ routed.portW.state ≠ .up) ∧ routed.route 49 = .flood ∧
    portIds.filter (fun a => a ≠ PortId.n ∧ (routed.port a).state = PortState.up) = [.s] ∧
    partOnlyKind (parseFrame (wire 45 60 .service 8 [1])).kind = true := by decide +kernel

/-- Two frames for Port W, at Port S and at the Agent Port, and a full queue on Port N. -/
def offering : Part :=
  { spur .up 0 with
    portS := { upPort with slots := [{ frame := aFrame, builder := .station, target := [.w], age := 3, arrived := 6 }] }
    portN := { upPort with queue := List.replicate 8 (queued .safety) }
    agent := { slots := [{ frame := { aFrame with cls := .signal }, builder := .part, target := [.w], age := 0, arrived := 9 }] } }

theorem witness_ArbitersGrantByClass :
    offering.granted .n = none ∧ ∃ o ∈ offering.granted .w, o.input = .agent ∧ o.place = 0 := by decide +kernel

def slotOf (b : Builder) (age : Nat) : Slot := { frame := aFrame, builder := b, target := [.w], age, arrived := 0 }

/-- An Agent Port with seven frames in slots, one of them old, and a Safety frame waiting. -/
def waiting : Part :=
  { demo with agent := { slots := slotOf .part 25 :: List.replicate 6 (slotOf .part 24)
                         waiting := [{ frame := { aFrame with cls := .safety }, builder := .part }] } }

theorem witness_WaitingFramesTakeSlots :
    (waiting.agent.waiting = [{ frame := { aFrame with cls := .safety }, builder := .part }] ∧ 1 ≤ 8 - waiting.agent.slots.length) ∧
    (∀ w ∈ waiting.agent.waiting, waiting.resolve none (waiting.routeFor w.frame.dest) = .target [.n, .s, .w]) := by decide +kernel

/-- As `bursting`, with the copy in Port W's queue the last one. -/
def aging : Part := { bursting .sending with portS := upPort }

theorem witness_OldFramesAreDiscarded :
    ((spur .up 0).portS.slots[0]? = some { frame := aFrame, builder := .station, target := [.n], age := 25, arrived := 0 } ∧
      (spur .up 0).ageLimit ≤ 25) ∧
    (∀ sl ∈ offering.portS.slots[0]?, sl.age < offering.ageLimit) ∧
    (aging.portW.queue[2]? = some { queued .service with age := 25 }) ∧
    (aging.portW.queue[0]? = some orderCopy ∧ aging.ageLimit ≤ orderCopy.age ∧
      (aging.withPort .w { upPort with queue := [{ queued .service with age := 24 }, { queued .service with age := 25 }] }).copyRemains 1 1 = false ∧
      (aging.channel 1).stage = .unsent ∧ 1 ≤ (aging.channel 1).triesLeft) ∧
    (∀ f ∈ aging.portW.queue[1]?, f.age < aging.ageLimit) ∧
    (waiting.agent.slots[0]? = some (slotOf .part 25) ∧ ∀ sl ∈ waiting.agent.slots[1]?, sl.age < waiting.ageLimit) ∧
    (let p : Part := { holding with hold := holding.hold.map fun e => { e with age := 100 } }
     ∃ e ∈ p.hold[0]?, p.holdLimit ≤ e.age) ∧
    (∀ e ∈ holding.hold[0]?, e.age < holding.holdLimit) := by decide +kernel

theorem witness_PortsFallSilent :
    (fading.portN.state = .training ∧ 10 ≤ fading.portN.training) ∧
    ¬(demo.portN.state = .training ∧ 10 ≤ demo.portN.training) ∧
    (fading.portS.state = .up ∧ fading.silenceLimit ≤ bump8 fading.portS.silence ∧
      ∀ sl ∈ fading.portS.slots, sl.target ≠ [] ∧ PortId.s ∉ sl.target) ∧
    ¬(demo.portS.state = .up ∧ demo.silenceLimit ≤ bump8 demo.portS.silence) := by decide +kernel

theorem witness_OvercurrentFaultsTheSpur :
    ((spur .training 0).portW.state.live = true ∧ (spur .training 0).portW.queue = [] ∧ (spur .training 0).portW.sending = none ∧
      ∀ sl ∈ (spur .training 0).portS.slots, sl.target ≠ [] ∧ PortId.w ∉ sl.target) ∧
    (spur .off 0).portW.state.live = false := by decide +kernel

/-- ALARM one sample before a change of its debounced state. -/
def sampled (mode : StoreMode) (alarm : Bool) (run : Nat) : Part := { demo with day := { demo.day with mode, alarm, alarmRun := run } }

theorem witness_AlarmInputIsDebounced :
    ((sampled .trading false 2).day.alarm = false ∧ (sampled .trading false 2).day.alarmRun = 2 ∧
      (sampled .trading false 2).day.mode ≠ .unloaded ∧ (sampled .trading false 2).day.mode ≠ .evacuation) ∧
    (sampled .unloaded false 2).day.mode = .unloaded ∧
    ¬((sampled .trading false 1).day.alarm = false ∧ (sampled .trading false 1).day.alarmRun = 2) ∧
    ((sampled .trading true 24).day.alarm = true ∧ (sampled .trading true 24).day.alarmRun = 24) := by decide +kernel

theorem witness_FramesForThePartAreCommands :
    (demo.portN.state = .up ∧ checkPasses (wire 120 70 .drive 1 [3]) = true ∧ formPasses demo.own (wire 120 70 .drive 1 [3]) = true ∧
      (parseFrame (wire 120 70 .drive 1 [3])).dest = demo.own ∧ demo.portN.slots.length < 3 ∧
      commandOf .n (parseFrame (wire 120 70 .drive 1 [3])) = some (.landingEdgeTrip drive)) ∧
    (formPasses demo.own (wire 120 70 .drive 12 [3]) = true ∧ commandOf .n (parseFrame (wire 120 70 .drive 12 [3])) = none) := by
  decide +kernel

/-! ## Witnesses: the chain -/

def params : ChainParams := chainParamsOf [bytesOf chainRow]

/-- A chain in a mode at 23990 with a speed. -/
def moving (mode : DriveMode) (v : Nat) : Part :=
  { demo with chain := { demo.chain with record := { demo.chain.record with x := 23990, v }, mode } }

/-- A chain that stops for the planes, 10 mm short of 1300, with the travel to go that is left. -/
def stopping (set : List Nat) (travel : Int) (replans : Nat) : Part :=
  { demo with
    chain := { demo.chain with
      record := { demo.chain.record with x := 1290, v := 100 }, mode := .stopping, parkSet := set, replans, stopStage := .run
      plan := some { stage := .run, target := 1300, travel, moved := true } } }

theorem witness_ChainPositionSetsTheRecord :
    (demo.role drive.source = some .drive ∧ demo.periodic = true ∧ demo.chainParams = some params ∧ params.loop = 24000) ∧
    demo.role panel.source ≠ some .drive ∧ 1023 < 1024 ∧ ({ demo with periodic := false } : Part).periodic = false ∧
    ({ demo with tables := powerUpTables.set 2 (rows 4 2 [[70, 0]]), committed := List.replicate 14 false } : Part).chainParams = none ∧
    -- a jump across the wrap: 8 mm foreseen and J 100 from 23990 at 400 mm/s end at 98
    (((99 : Int) - (moving .running 400).chain.record.x) % params.loop = 109 ∧ (((400 + 25) / 50 : Nat) : Int) + params.jumpTol = 108) ∧
    (5 * params.runLimit < 4 * 501 ∧ ¬5 * params.runLimit < 4 * 500) ∧
    ((moving .parked 0).chain.mode = .parked ∧ 0 < 1) ∧
    (tripped 0).chain.mode = .tripped ∧ (moving .lastCall 400).chain.mode = .lastCall ∧
    -- arrival at a tolerance of 25, and beyond it; the advance of 10 mm is no jump
    ((stopping [1] (-15) 0).chain.plan = some { stage := .run, target := 1300, travel := -15, moved := true } ∧
      ((1300 : Int) - 1290) % params.loop = 10 ∧ 10 ≤ (((100 + 25) / 50 : Nat) : Int) + params.jumpTol ∧
      -(params.stopTol : Int) ≤ -15 - 10 ∧ (stopping [1] (-15) 0).planeClear 1 1300 = true) ∧
    ((stopping [1] (-16) 2).chain.replans < 3 ∧ ((-16 : Int) - 10 < -params.stopTol)) ∧
    (3 ≤ (stopping [1] (-16) 3).chain.replans) := by decide +kernel

theorem witness_DriveReportsTripAndTimersStop :
    (demo.role drive.source = some .drive ∧ demo.chain.mode ≠ .tripped ∧ demo.driveStation = some 70) ∧
    demo.role panel.source ≠ some .drive ∧ (tripped 0).chain.mode = .tripped ∧
    ((unreported 2).periodic = true ∧ (unreported 2).chain.reportTaken = false ∧ 2 ≤ (unreported 2).chain.record.misses) ∧
    ¬2 ≤ (unreported 1).chain.record.misses ∧
    (let c := { (moving .lastCall 400).chain with clearing := 1 }; c.mode = .lastCall ∧ c.clearing ≤ 1) ∧
    (running.claim = some office.source ∧ running.chain.mode = .running) := by decide +kernel

/-- A stop for planes 1 and 3 with its plan being computed. -/
def planning (v : Nat) (x : Nat) : Part :=
  { stopping [1, 3] 500 0 with
    chain := { (stopping [1, 3] 500 0).chain with record := { demo.chain.record with x, v } }
    park := { demo.park with lastRequest := 7, inProgress := some { number := 7, parkSet := [1, 3], x, v, stage := .run, speed := v } } }

/-- The request that `planning` computes. -/
def request (v x : Nat) : PlanRequest := { number := 7, parkSet := [1, 3], x, v, stage := .run, speed := v }

theorem witness_PlanAnswersAreAdopted :
    demo.park.inProgress = none ∧
    ((planning 400 0).park.inProgress = some (request 400 0) ∧ (planning 400 0).chain.mode = .stopping ∧
      (request 400 0).number = (planning 400 0).park.lastRequest ∧
      -- D is 176 (R102); the middle of 1245 to 1400 lies at 1322
      ((planning 400 0).planAnswer (request 400 0)).outcome = .target 1322 1322) ∧
    ((planning 0 1300).planAnswer (request 0 1300)).outcome = .clear ∧
    ({ planning 400 0 with chain := { demo.chain with mode := .halted } } : Part).chain.mode ≠ .stopping := by decide +kernel

theorem witness_PollsAreAnswered :
    demo.driveStation ≠ some panel.source ∧
    (demo.driveStation = some drive.source ∧ demo.periodic = true ∧ demo.chain.waitingPoll = none ∧ demo.heldMode = false ∧
      (demo.port drive.port).state.live = true) ∧
    (let p : Part := { unreported 0 with chain := { (unreported 0).chain with waitingPoll := none } }
     p.heldMode = true ∧ p.chain.evaluated = false ∧ p.chain.evalPlan = none) ∧
    (unreported 0).chain.waitingPoll ≠ none := by decide +kernel

theorem witness_ParkTargetsAreClear :
    demo.chainParams = some params ∧ params.cabins ≠ 0 ∧ params.loop % params.cabins = 0 ∧ 1500 ≤ params.pitch ∧ 20 ≤ params.width ∧
    1 ≤ params.margin ∧ params.margin ≤ 255 ∧
    (∀ k ∈ [1, 3], recordAt demo.park.arcStarts k =
      some ((((demo.plane k).coordinate : Int) - params.pitch + params.margin) % params.pitch).toNat) ∧
    (demo.planAnswer (request 400 0)).outcome = .target 1322 1322 ∧ (demo.planAnswer (request 0 1300)).outcome = .clear := by
  decide +kernel

/-! ## Witnesses: the order channels -/

/-- Channel 1 as `sendingClose` with a few fields changed, channel 2 Idle with a retry due, and a route to 81. -/
def channeled (st : ChannelState) (tries timer : Nat) : Part :=
  { ordering with
    channels := { sendingClose with state := st, triesLeft := tries, timer, stage := .sent } ::
      { state := .sending, record := .slide 3, target := 83, order := .slideOpen, triesLeft := 1, retryDue := true } ::
      List.replicate 10 {}
    orders := [{ record := .slide 2, target := 81, order := .slideClose, cls := .safety, placed := 8 },
               { record := .post 1, target := 64, order := .playPhrase 1 1, cls := .signal, placed := 8 },
               { record := .lamp, target := 70, order := .lampsOff, cls := .drive, placed := 9 }] }

theorem witness_ChannelsBuildOrders :
    (∀ o ∈ demo.orders, o.target = 0) ∧
    -- of the three pending orders the first waits for its station's channel, and the lamp order's class goes before the post's
    (let p := channeled .awaiting 1 1
     p.channels.length = 12 ∧ (p.channel 3).state = .idle ∧ (∀ d ∈ channelNumbers, d < 3 → (p.channel d).state ≠ .idle) ∧
     (∀ d ∈ channelNumbers, ¬((p.channel d).state ≠ .idle ∧ (p.channel d).target = 70)) ∧
     ((p.channel 1).state ≠ .idle ∧ (p.channel 1).target = 81) ∧ clsCode .drive < clsCode .signal ∧
     p.resolve none (p.route 70) = .target [.n, .s, .w] ∧
     (p.channel 2).retryDue = true ∧ (p.channel 1).retryDue = false ∧
     ((p.channel 1).state = .awaiting ∧ (p.channel 1).timer ≤ 1 ∧ 1 ≤ (p.channel 1).triesLeft)) ∧
    ((channeled .awaiting 0 1).channel 1).triesLeft = 0 ∧
    (((channeled .halting 0 1).channel 1).state = .halting ∧ ((channeled .halting 0 1).channel 1).stage ≠ .unsent) ∧
    ¬((channeled .awaiting 0 2).channel 1).timer ≤ 1 ∧
    (let p : Part := { channeled .awaiting 1 1 with tables := demoTables.set 0 (List.replicate 128 [0#8]) }
     p.resolve none (p.route 81) = .discard .unroutable) := by decide +kernel

def slideStation : From := { port := .n, source := 81 }

theorem witness_ConfirmsEndOrders :
    2 < 3 ∧ (∀ d ∈ channelNumbers, ¬((demo.channel d).state ≠ .idle ∧ (demo.channel d).target = 81)) ∧
    (∀ st ∈ [ChannelState.awaiting, .sending, .halting], ∀ n ∈ [0, 1],
      ((channeled st n 1).channel 1).state = st ∧ ((channeled st n 1).channel 1).target = slideStation.source ∧
      ((channeled st n 1).channel 1).triesLeft = n ∧ ((channeled st n 1).channel 1).transmitted = true ∧
      ((channeled st n 1).channel 1).toggle = false) ∧
    ((channeled .awaiting 1 1).channel 1).deaf = false := by decide +kernel

/-! ## Witnesses: the well slides and the floor shutters -/

/-- Plane 1 closing in its last cycle, plane 2 silent for 49 cycles; plane 3's slide stands Open with no move. -/
def sliding : Part :=
  { demo with slides := [some { state := .closing, move := some .close, timer := 1 }, some { state := .opened, silence := 49 },
                         some { state := .opened }, some { state := .closed }] ++ List.replicate 12 none }

theorem witness_SlidesFollowTheirReports :
    sliding.role 81 = some .slide ∧ sliding.role 70 ≠ some .slide ∧ sliding.planesAt 83 = [3] ∧
    (sliding.stationMove 83 = none ∧ sliding.slide 3 = some { state := .opened } ∧ (sliding.plane 3).enabled = true) ∧
    sliding.stationMove 81 = some .close ∧
    sliding.slide 1 = some { state := .closing, move := some .close, timer := 1 } ∧
    (sliding.slide 2 = some { state := .opened, silence := 49 } ∧ ∀ q ∈ sliding.slide 1, q.silence ≠ 50) := by decide +kernel

/-- Compartment 1 in an evacuation with its first group being lowered: its shutter reports while 10 s remain. -/
def lowering (s : ShutterRecord) : Part :=
  { burning with shutters := [some s, some { state := .opened }, some { state := .opened, silence := 49 }] ++ List.replicate 21 none }

theorem witness_ShuttersFollowTheirReports :
    (let p := lowering { state := .lowering, move := some .toPause, timer := 1 }
     p.role 51 = some .shutter ∧ p.shutterAt 51 = some 1 ∧
     p.shutterRec 1 = some { state := .lowering, move := some .toPause, timer := 1 } ∧
     -- a report At Pause settles group 1, and group 2 with shutter 2 is next
     (p.seq 1).state = .sequencing ∧ (p.seq 1).cause = some .evacuation ∧ (p.seq 1).dropped = false ∧ (p.seq 1).group = 1 ∧
     p.groupOf 1 1 = [1] ∧ p.groupOf 1 2 = [2] ∧
     ((out (.shutterPosition { port := .n, source := 51 } .atPause) p).shutterState 1) = .paused ∧
     ((out (.shutterPosition { port := .n, source := 51 } .atPause) p).shutterState 2) = .opened ∧
     -- a report Between leaves it unsettled
     ((out (.shutterPosition { port := .n, source := 51 } .between) p).shutterState 1) = .lowering) ∧
    demo.role 70 ≠ some .shutter ∧ (lowering { state := .jammed }).shutterRec 3 = some { state := .opened, silence := 49 } := by
  decide +kernel

theorem witness_StandingShuttersAreLowered :
    (let p : Part := { lowering { state := .paused } with
       sequences := { state := .sequencing, cause := some .evacuation, group := 1, since := 9, timer := 1 } :: List.replicate 7 {} }
     (p.seq 1).timer = 1 ∧ 1 ∈ p.shuttersOf 1 ∧ (p.shutter 1).escape = true ∧ (p.shutter 1).group ≤ (p.seq 1).group ∧
     p.shutterState 1 = .paused ∧ p.sequences.length = 8) ∧
    (burning.seq 2).timer ≠ 1 ∧ demo.role panel.source = some .firePanel ∧ demo.role drive.source ≠ some .firePanel ∧
    (early [] false).day.mode = .unloaded ∧ (demo.day.mode ≠ .unloaded ∧ demo.sequences.length = 8) ∧
    ((1#8).getLsbD (1 - 1) = true ∧ (1#8).getLsbD (8 - 1) = false) ∧
    (∀ k ∈ demo.shuttersOf 8, demo.shutterState k = .lowered) := by decide +kernel

/-! ## Witnesses: signal posts and calls -/

def postStation : From := { port := .n, source := 64 }

/-- Post 1 with an item whose first repeat of two is played, in Playing or Halting, its queue empty. -/
def sounding (st : PostState) (it : Item) : Part :=
  { playing with
    posts := some { idlePost with state := st, current := some it, phase := .confirmed, deadline := 1, silence := 49,
                                  lookup := some (.phrase 5) } :: playing.posts.tail
    day := { demo.day with lastStep := some 2 } }

theorem witness_PostsFollowTheirReports :
    playing.postAt postStation.source = some 1 ∧ playing.role postStation.source = some .post ∧
    ({ demo with tables := demoTables.set 2 (rows 4 2 [[64, 0]]) } : Part).role postStation.source ≠ some .post ∧
    (demo.post 1 = some idlePost ∧ demo.post 3 = some { state := .disabled }) ∧
    (∀ it ∈ [staffItem, stepItem, { stepItem with source := .step 1 }, { staffItem with source := .test, repeats := 15 }],
      ∀ st ∈ [PostState.playing, .halting], ∀ r ∈ (sounding st it).post 1,
        r.state = st ∧ r.current = some it ∧ r.queue = [] ∧ ((sounding st it).lookUp { it with repeats := 1 }).isSome = true) ∧
    staffItem.repeats - 1 = 1 ∧ stepItem.repeats - 1 = 0 ∧ aCall ∈ (sounding .playing staffItem).calls ∧
    (sounding .playing stepItem).day.lastStep = some 2 ∧
    (∀ r ∈ playing.post 1, ∀ it ∈ r.queue.head?, (playing.lookUp it).isSome = true) ∧
    (let p : Part := { demo with posts := some { idlePost with state := .lost, silence := 50, queue := [staffItem] } :: playing.posts.tail }
     ∃ r ∈ p.post 1, r.state = .lost ∧ r.current = none ∧ (p.lookUp staffItem).isSome = true) := by decide +kernel

theorem witness_PostsAreLost :
    (∃ r ∈ (sounding .playing staffItem).post 1, r.state = .playing ∧ r.deadline ≤ 1 ∧ r.silence = 49) ∧
    (∃ r ∈ playing.post 1, ¬r.deadline ≤ 1 ∧ r.silence ≠ 49) ∧
    (let p : Part := { demo with posts := [none, none, some { state := .disabled, silence := 49 }] ++ List.replicate 13 none }
     p.post 3 = some { state := .disabled, silence := 49 }) := by decide +kernel

def floorCall : From := { port := .s, source := 44 }

theorem witness_CallsAreAnswered :
    -- out of range at each end, and in range at each end
    (∀ c ∈ [0, 49], ¬(1 ≤ c ∧ c ≤ 48)) ∧ ¬1 ≤ 0 ∧ ¬16 ≤ 15 ∧ ¬5 ≤ 4 ∧ ¬301 ≤ 300 ∧ ¬0#16 ≠ 0#16 ∧
    (1 ≤ 48 ∧ 48 ≤ 48 ∧ 1 ≤ 15 ∧ 15 ≤ 15 ∧ 5 ≤ 300 ∧ 300 ≤ 300 ∧ 1#16 ≠ 0#16) ∧
    (early [] false).day.mode = .unloaded ∧ burning.day.mode = .evacuation ∧
    (demo.day.mode ≠ .unloaded ∧ demo.day.mode ≠ .evacuation ∧ demo.bell 48 = none) ∧
    ((demo.bell 1).isSome = true ∧ playing.calls = [] ++ aCall :: [] ∧ aCall.code = 1) ∧
    (let p : Part := { demo with calls := List.replicate 16 { aCall with code := 2 } }
     (∀ x ∈ p.calls, x.code ≠ 1) ∧ 16 ≤ p.calls.length) ∧
    ((∀ x ∈ playing.calls, x.code ≠ 2) ∧ playing.calls.length < 16 ∧ (playing.bell 2).isSome = true ∧
      ∀ x ∈ playing.calls, x.id ≠ if playing.lastCall < 255 then playing.lastCall + 1 else 1) ∧
    (1 ∈ demo.enabledPosts ∧ demo.post 1 = some idlePost) := by decide +kernel

/-- The call table with one call at a due round. -/
def calling (remaining : Nat) (code : Nat) (escalated : Bool) : Part :=
  { demo with calls := [{ aCall with remaining, code, escalated }] }

theorem witness_CallsRunOutOrAreAnswered :
    (playing.callOf 5 = none ∧ Ahead.round 4 ∉ demo.ahead) ∧
    ((calling 2 1 false).callOf 4 = some { aCall with remaining := 2 } ∧ aCall.nextRound = 1 ∧ ¬2 ≤ 1 ∧
      ((calling 2 1 false).bell 1).isSome = true) ∧
    (∃ e ∈ (calling 1 1 false).bell 1, e.escCode ≠ 0 ∧ e.escPost = 3) ∧
    (∃ e ∈ (calling 1 2 false).bell 2, e.escCode = 0) ∧ (calling 1 48 false).bell 48 = none ∧
    (∀ x ∈ (calling 1 2 true).calls, x.escalated = true) ∧
    -- Acknowledges by id and by code, at the ends of their ranges
    (¬(0 = 0 ∧ 0 ≠ 0) ∧ ¬49 ≤ 48 ∧ (1 = 1 ∧ 1 ≤ 48 ∧ 48 ≤ 48)) ∧ (∀ x ∈ playing.calls, x.id ≠ 255) ∧
    (∃ x ∈ playing.calls, x.id = 4) := by decide +kernel

/-! ## Witnesses: the store day -/

theorem witness_ClockAdvancesTakeSteps :
    (demo.day.clockSet = true ∧ demo.day.sub = 49) ∧
    ¬(({ demo with day := { demo.day with sub := 48 } } : Part).day.sub = 49) ∧
    ((86399 + 1) % 86400 = 0) ∧
    (∃ st ∈ demo.steps, demo.day.pointer = some st.number ∧ st.time = (demo.day.second + 1) % 86400 ∧ st.action = .warning ∧
      bitOf st.posts (1 - 1) = true ∧ demo.phrase st.cue = some 6) ∧
    (∃ st ∈ demo.steps, st.action = .opening ∧ st.number = 1) ∧
    ({ demo with day := { demo.day with second := 10 } } : Part).steps.all (fun st => st.time ≠ 11) = true ∧
    (demo.shutterRec 1 = some { state := .opened } ∧ (lowering { state := .paused }).shutterRec 1 = some { state := .paused }) ∧
    ((early [] false).day.mode = .unloaded ∧ burning.day.mode = .evacuation ∧ demo.day.mode ≠ .evacuation) := by decide +kernel

theorem witness_FireReportsEvacuate :
    (demo.role panel.source = some .firePanel ∧ demo.role drive.source ≠ some .firePanel ∧ (1 ≤ 16 ∧ 16 ≤ 16) ∧ ¬1 ≤ 0 ∧ ¬17 ≤ 16) ∧
    1 ∈ burning.fire.zones ∧ (1 ∉ demo.fire.zones ∧ demo.day.mode ≠ .unloaded ∧ demo.day.mode ≠ .evacuation) ∧
    (early [] false).day.mode = .unloaded ∧ (2 ∉ burning.fire.zones ∧ burning.day.mode = .evacuation) ∧
    (demo.sequences.length = 8 ∧ 1 ∈ demo.zoneCompartments 1 ∧ 1 ∉ demo.fire.affected ∧ 1 ∈ burning.fire.affected) ∧
    (let p : Part := { burning with fire := { burning.fire with streamTimer := 1 } }
     p.fire.streamOn = true ∧ p.fire.streamTimer ≤ 1 ∧ 1 ∈ p.enabledPosts ∧ p.post 1 = some idlePost ∧
     p.lookUp { content := .pattern p.evacCode, source := .stream, repeats := p.evacRepeats, enqueued := p.cycle } =
       some (.pattern 0x5700#16 3, .playPattern 0x5700#16 3 2)) ∧
    ¬burning.fire.streamTimer ≤ 1 ∧
    (let p : Part := { demo with fire := { panels := [(5, 49)] } }
     5 ∈ p.panelStations ∧ p.panelSilence 5 = 49 ∧ p.panelSilence 6 ≠ 49) := by decide +kernel

/-! ## The spec's worked cases -/

/-- R146, R147: the greatest deadlines, and a pattern whose first slot is End. -/
theorem test_play_deadlines :
    patternDeadline 0x5555#16 7 15 = 4522 ∧ phraseDeadline 60 15 = 45710 ∧ (Lookup.pattern 0xC000#16 7).deadline 1 = 10 := by decide +kernel

/-- The planes of sections 6.11 and 6.12 by their coordinates, with arc starts as the tables there give them. -/
def parked (starts : List Nat) : Part :=
  { demo with park := { demo.park with arcStarts := starts.map some ++ List.replicate (16 - starts.length) none } }

def ask (set : List Nat) (x v : Nat) : PlanRequest := { number := 1, parkSet := set, x, v, stage := .run, speed := v }

/-- Section 6.11: D 176, travel 1,115, target 8,530, target phase 1,330 and no plane unclosable. -/
theorem test_night_park :
    (parked [1250, 1230, 1245, 1235, 1260]).planAnswer (ask [1, 2, 3, 4, 5] 7415 400) =
      { outcome := .target 8530 1115, stopping := 176, closable := [1, 2, 3, 4, 5], arc := some (1230, 1260, 30, 1330), unclosable := [] } := by
  decide +kernel

/-- Section 6.12: the run of plane 1 is chosen, target 16,880 at travel 1,880, planes 3, 5 and 6 unclosable. -/
theorem test_evacuation_park :
    (parked [2330, 60, 150, 2380, 410, 480]).planAnswer (ask [1, 2, 3, 4, 5, 6] 15000 300) =
      { outcome := .target 16880 1880, stopping := 102, closable := [1, 2, 4], arc := some (2330, 60, 130, 80), unclosable := [3, 5, 6] } := by
  decide +kernel

/-- R101's arc starts in section 6.12: 2,290 gives 2,330 and 14,770 gives 410. -/
theorem test_arc_starts : arcStart params 2290 = 2330 ∧ arcStart params 14770 = 410 := by decide +kernel

/-- Section 2.5's example: overcurrent while the first of two frames is half sent flushes both. -/
theorem test_spur_overcurrent :
    let w := (out .overcurrent
      { demo with portW := { upPort with sending := some (queued .safety), queue := [queued .drive], burstLeft := 9 } }).portW
    w.state = .faulted ∧ w.queue = [] ∧ w.counters.flushed = 2 := by decide +kernel

/-- Section 4.11: a Busy Confirm with a try left makes the retry due, and the timer stops. -/
theorem test_busy_confirm :
    let c := (out (.confirm slideStation false 1) (channeled .awaiting 2 4)).channel 1
    c.state = .sending ∧ c.retryDue = true ∧ c.timer = 0 := by decide +kernel

/-! ## Single commands, with results from the rules -/

/-- R5, R18: at power-up the first Marks go out on all three ports, in cycle 0. -/
theorem test_power_up_marks : (out (.powerUp 3 false) {}).sent.map (fun x => x.1) = [.n, .s, .w] ∧ (out (.powerUp 3 false) {}).own = 123 := by
  decide +kernel

/-- R1: the cycle after 65535 is cycle 0. -/
theorem test_cycle_wraps : (out (.cycleStart false) { demo with cycle := 65535 }).cycle = 0 := by decide +kernel

/-- R77: at 400 mm/s an extrapolation advances x by 8 mm, here across the end of the loop. -/
theorem test_extrapolation : (out .endOfPeriodicMark (unreported 0)).chain.record.x = 3 := by decide +kernel

/-- R78: an advance of v/50 + J is no jump, one more is. -/
theorem test_position_jump :
    (out (.chainPosition drive 101 400 .running 0#8) running).chain.mode = .tripped ∧
    (out (.chainPosition drive 98 400 .running 0#8) (moving .running 400)).chain.mode = .running ∧
    (out (.chainPosition drive 99 400 .running 0#8) (moving .running 400)).chain.mode = .tripped := by decide +kernel

/-- R86: a travel to go of exactly -T is an arrival, one below it is missed and asks a re-plan. -/
theorem test_arrival :
    (out (.chainPosition drive 1300 0 .braked 0#8) (stopping [1] (-15) 0)).chain.mode = .parked ∧
    (out (.chainPosition drive 1300 0 .braked 0#8) (stopping [1] (-16) 0)).chain.replans = 1 := by decide +kernel

/-- R59, R60: the lamp order of class Drive goes before the older Signal order, and the Safety order for a busy station waits. -/
theorem test_channel_grant : ((out .channelGrant (channeled .awaiting 1 4)).channel 3).record = .lamp := by decide +kernel

/-- R159: a due round is counted down and the next one set five seconds ahead. -/
theorem test_round_due : (out (.roundDue 4) (calling 2 1 false)).calls.map (fun c => (c.remaining, c.nextRound)) = [(1, 250)] := by
  decide +kernel

/-- R160: a call that runs out takes the escalation code 2 and the escalation post 3 alone. -/
theorem test_escalation :
    (out (.roundDue 4) (calling 1 1 false)).calls.map (fun c => (c.code, c.posts, c.escalated)) = [(2, 4#16, true)] := by decide +kernel

/-- R167, R168: the Warning step at second 12 is taken when the clock comes to it, and the pointer goes on to the first step. -/
theorem test_warning_step :
    let d := (out .clockAdvance demo).day
    d.mode = .warning ∧ d.second = 12 ∧ d.pointer = some 1 ∧ d.lastStep = some 2 := by decide +kernel

/-- R174, R175: the first zone alarm enters Evacuation and marks the zone's compartments. -/
theorem test_zone_alarm :
    let t := out (.fireZoneAlarm panel 3) demo
    t.day.mode = .evacuation ∧ t.fire.affected = [1, 3] ∧ t.fire.cause = some (.report 3) := by decide +kernel

/-- R177: Restore is refused while a zone is active, and ends the evacuation when none is. -/
theorem test_restore :
    (out (.restore office) burning).day.mode = .evacuation ∧ (out (.restore office) burntOut).day.mode = .trading := by decide +kernel

/-- R182: a phrase length of 61 s is refused, and the table in force stays. -/
theorem test_bad_commit : (out (.commit office 10) badlyLoaded).tables = demoTables := by decide +kernel

/-- R187: a Reset order keeps the tables and leaves fault warm reset first. -/
theorem test_warm_reset :
    let t := out (.reset office) playing
    t.tables = demoTables ∧ t.calls = [] ∧ t.faults.first = some { code := .warmReset, cycle := 9, station := 30 } := by decide +kernel

/-- Log 2: with no command waiting the part stays as it is. -/
theorem test_idle : step State.reset = .next State.reset := rfl

/-! ## Witnesses: clauses that need states of their own -/

/-- A copy of one table put in force in `demo`'s place, loaded by the office. -/
def copied (p : Part) (id : Nat) (t : Table) : Part := { p with copies := (List.replicate 14 none).set (id - 1) (some t) }

/-- Plane 1 moved to station 84, plane 2 disabled, plane 3 removed, plane 5 new. -/
def newPlanes : Table :=
  rows 16 7 [[84, 0, 4, 166, 3, 6, 10], [81, 0, 4, 171, 3, 2, 10], [], [85, 0, 4, 196, 3, 2, 10], [86, 0, 5, 0, 3, 6, 10]]

/-- Shutter 1 moved to station 57, shutter 3 removed. -/
def newShutters : Table := rows 25 5 [[0, 20, 0, 0, 0], [57, 1, 1, 3, 10], [52, 1, 2, 2, 10]]

/-- Post 1 disabled, post 2 moved, post 3 enabled, post 4 new. -/
def newPosts : Table := rows 16 3 [[64, 3, 0], [68, 2, 1], [67, 0, 1], [69, 0, 0]]

/-- Post 3 disabled, heard or not, and its queue. -/
def disabledPost (heard : Bool) (queue : List Item) : Part :=
  { demo with posts := [some idlePost, some idlePost, some { state := .disabled, heard, queue }] ++ List.replicate 13 none }

/-- Post 3, heard before it fell silent while disabled, enabled once and then again (R138). -/
def enabledTwice : List Part :=
  let once := ({ demo with posts := [none, none, some { state := .disabled, heard := true, silence := 50 }] } : Part).postEnabled 3
  [once, (once.postDisabled 3).postEnabled 3]

theorem test_report_on_hand_again :
    enabledTwice.map (fun p => (p.post 3).map fun r => (r.state, r.onHand)) = [some (.unknown, true), some (.idle, true)] := by
  decide +kernel

theorem witness_CommitPutsTheCopyInForce_effects :
    (∀ x ∈ [(3, rows 4 2 [[70, 0], [5, 7], [9, 0], [30, 31]]), (5, newPlanes), (6, newShutters), (8, newPosts),
        (11, rows 12 9 [[1, 0, 0, 13, 1, 0, 3, 2, 1]])],
      (copied demo x.1 x.2).claim = some office.source ∧ (copied demo x.1 x.2).copies.getD (x.1 - 1) none = some x.2 ∧
        (copied demo x.1 x.2).commitTest x.1 x.2 = none) ∧
    (demo.tables.length = 14 ∧ demo.slides.length = 16 ∧ demo.shutters.length = 24 ∧ demo.posts.length = 16 ∧
      demo.channels.length = 12) ∧
    ((planeEntryOf newPlanes 1).station ≠ (demo.plane 1).station ∧
      ((demo.plane 2).enabled = true ∧ (planeEntryOf newPlanes 2).enabled = false) ∧
      (planeEntryOf newPlanes 3).station = 0 ∧ (planeEntryOf newPlanes 4).station = (demo.plane 4).station) ∧
    ((shutterEntryOf newShutters 1).station ≠ (demo.shutter 1).station ∧
      (shutterEntryOf newShutters 2).station = (demo.shutter 2).station ∧ (shutterEntryOf newShutters 3).station = 0) ∧
    ((postEntryOf newPosts 1).flagEnabled = false ∧ (demo.postEntry 1).flagEnabled = true ∧
      (postEntryOf newPosts 2).station ≠ (demo.postEntry 2).station ∧ (postEntryOf newPosts 3).flagEnabled = true ∧
      (demo.postEntry 3).flagEnabled = false ∧ (demo.postEntry 4).station = 0) ∧
    (∃ r ∈ (disabledPost true [staffItem]).post 3, r.heard = true ∧ r.silence < 50 ∧ r.current = none) ∧
    ((disabledPost true [staffItem]).lookUp staffItem).isSome = true ∧
    (∃ r ∈ (disabledPost false []).post 3, ¬(r.heard = true ∧ r.silence < 50) ∧ r.state = .disabled) := by decide +kernel

/-- Two posts of one station: no test of state or range fails, a form test does. -/
def twinPosts : Table := rows 16 3 [[64, 3, 1], [64, 2, 1]]

theorem witness_RefusedCommitChangesNothing_tests :
    badlyLoaded.outOfState 4 ∧ (¬demo.outOfState 10 ∧ demo.outOfRange 10 (rows 64 1 [[61]])) ∧
    (¬demo.outOfState 8 ∧ ¬demo.outOfRange 8 twinPosts ∧ demo.formFails 8 twinPosts ∧ demo.commitTest 8 twinPosts = some .refusedCheck) := by
  refine ⟨Or.inl ⟨Or.inl rfl, Or.inl (Or.inl rfl)⟩, ⟨by unfold Part.outOfState; decide +kernel, bytesOf [61], by decide, by decide⟩,
    by unfold Part.outOfState; decide +kernel, ?_, ?_, by decide +kernel⟩
  · change ¬∃ k ∈ postNumbers, let e := postEntryOf twinPosts k
      e.station ≠ 0 ∧ ((e.station ≠ 0 ∧ (127 < e.station ∨ e.station = demo.own)) ∨ 9 < e.floor)
    decide +kernel
  · exact ⟨1, by decide, Or.inr ⟨by decide, Or.inr (Or.inr ⟨2, by decide, by decide, by decide⟩)⟩⟩

theorem witness_ReadAnswersAndChangesNothing_tables :
    -- table 8 is read from its first entry and from its last; 0 and 17 lie outside
    (isTable 8 = true ∧ entryLow 8 ≤ 1 ∧ 16 < entryLow 8 + (demo.table 8).length ∧ ∀ e ∈ demo.table 8, e.length = entrySize 8) ∧
    ¬(entryLow 8 ≤ 0) ∧ ¬(17 < entryLow 8 + (demo.table 8).length) ∧
    (33 ≤ 42 ∧ 42 ≤ 46 ∧ loaded.copies.getD (42 - 33) none = some (rows 64 1 [[7]]) ∧ loaded.copies.getD (46 - 33) none = none) := by
  decide +kernel

/-- In every drive mode a zone alarm changes the store mode: the chain then follows, out of Parked too. -/
theorem witness_chainFollowsMode :
    (∀ m ∈ [DriveMode.halted, .running, .lastCall, .stopping, .parked, .tripped],
      (moving m 0).chain.mode = m ∧ (out (.fireZoneAlarm panel 3) (moving m 0)).day.mode = .evacuation ∧
        (out (.fireZoneAlarm panel 3) (moving m 0)).wantedSet = [1, 2, 3]) ∧
    -- and a Restore into Trading leaves the evacuation's wanted set
    burntOut.wantedSet = [1, 2, 3] ∧ (out (.restore office) burntOut).wantedSet = [] ∧
    (out (.restore office) burntOut).day.mode = .trading ∧
    -- the wanted set of Night is smaller than the evacuation's
    ({ demo with day := { demo.day with mode := .night } } : Part).wantedSet = [1, 2, 3] := by decide +kernel

/-- Nothing is due: the mark has passed, the second is young. -/
def calmPart : Part := { demo with periodic := false, day := { demo.day with sub := 48 } }

theorem calmPart_calm : calmPart.calm false := by
  refine ⟨rfl, rfl, rfl, fun _ => by decide, fun q => ?_, by decide, by decide, by decide +kernel, by decide, by decide +kernel,
    by decide +kernel, by decide +kernel, by decide +kernel, by decide, by decide +kernel, by decide⟩
  cases q <;> decide +kernel

/-- Two calls, and a play whose station is heard. -/
theorem witness_CycleStartOpensTheCycle_counts :
    calmPart.calm false ∧ ¬ calmPart.periodic = true ∧
    (∀ c ∈ channelNumbers, ¬((demo.channel c).state ≠ .idle ∧ (demo.channel c).record = .slide 1)) ∧
    (sliding.slide 1 = some { state := .closing, move := some .close, timer := 1 } ∧
      sliding.slide 2 = some { state := .opened, silence := 49 }) ∧
    (let c := (moving .lastCall 400).chain; c.mode = .lastCall) ∧
    (burning.day.mode = .evacuation ∧ burning.sequences.length = 8 ∧ burning.fire.streamOn = true ∧ Ahead.stream ∉ burning.ahead) ∧
    (∃ r ∈ playing.post 1, r.state = .playing ∧ r.phase ≠ .pending ∧ 1 < r.deadline) ∧
    (∃ r ∈ (sounding .playing staffItem).post 1, r.deadline ≤ 1 ∧ r.silence = 49) ∧
    ((calling 2 1 false).calls.map fun c => c.id).Nodup ∧ 5 ∈ demo.panelStations ∧
    (((channeled .awaiting 0 1).channel 1).state = .awaiting ∧ ((channeled .awaiting 0 1).channel 1).retryDue = false) ∧
    ((planning 400 0).park.inProgress = some (request 400 0) ∧ (request 400 0).number = (planning 400 0).park.lastRequest) :=
  ⟨calmPart_calm, by decide, by decide +kernel, by decide, by decide, by decide +kernel, by decide +kernel, by decide +kernel,
    by decide +kernel, by decide +kernel, by decide +kernel, by decide +kernel⟩

/-- A Pass Rule Table of one rule for every frame, with an action code and an argument. -/
def ruled (action arg : Nat) : Part := { demo with tables := demoTables.set 1 (rows 32 7 [[action, 0, 128, 15, 16, 127, arg]]) }

theorem witness_TransitFramesAreAccepted_actions :
    -- a Call from station 44 copied to the Call Unit, a fire report tapped, and a Service frame under a closed gate
    (let f := parseFrame (wire 45 44 .signal 6 [1, 0, 1, 1, 0, 5, 0, 0])
     f.kind = 6 ∧ passAction ((ruled 3 4).table tPass) f .trading = .copy (some .callUnit) ∧
      (ruled 3 4).ownerOf f = some .callUnit ∧ passAction ((ruled 4 4).table tPass) f .trading = .take (some .callUnit)) ∧
    (let f := parseFrame (wire 45 5 .safety 1 [15, 3])
     demo.role f.source = some .firePanel ∧ demo.tapped f = true) ∧
    (passAction ((ruled 5 46).table tPass) (parseFrame (wire 45 60 .service 12 [1])) .trading = .redirect 46 ∧
      passAction ((ruled 6 3).table tPass) (parseFrame (wire 45 60 .service 12 [1])) .trading = .hold (some .tradingHours)) ∧
    (let p : Part := { ruled 6 3 with hold := holding.hold ++ holding.hold ++ holding.hold ++ holding.hold }; 4 ≤ p.hold.length) ∧
    holding.gates.signalSet = true ∧
    (∀ e ∈ (routed.table tPass).tail, ¬(1 ≤ byteAt e 0)) := by decide +kernel

theorem witness_ArbitersGrantByClass_offers :
    (∃ o ∈ offering.offerOf .agent, o.place = 0 ∧ PortId.w ∈ o.target) ∧
    (∃ f, offering.couldOffer .agent 0 f [.w]) ∧ (∃ e ∈ holding.offerOf .hold, e.target = [.s]) :=
  ⟨by decide +kernel, ⟨_, ⟨_, rfl, rfl, rfl⟩, by decide +kernel⟩, by decide +kernel⟩

theorem witness_WaitingFramesTakeSlots_order :
    let p : Part := { demo with agent := { waiting :=
      [{ frame := aFrame, builder := .part }, { frame := { aFrame with cls := .signal }, builder := .part }] } }
    (∃ w ∈ p.agent.waiting[1]?, w.frame.cls = .signal ∧ 2 ≤ 8 - p.agent.slots.length) ∧
    (∀ w ∈ p.agent.waiting, clsCode .signal ≤ clsCode w.frame.cls) := by decide +kernel

theorem witness_chain_clauses :
    -- PortOrdersMoveThePort and OvercurrentFaultsTheSpur: a Poll waits by the port, and by another
    (∃ w ∈ (unreported 0).chain.waitingPoll, w.port = .n ∧ w.port ≠ .w) ∧
    -- ChainPositionSetsTheRecord: a report without a cause in Halted, after a stop for no plane, and before the plan has come
    (demo.chain.mode = .halted ∧ (stopping [] 500 0).chain.parkSet = [] ∧
      (planning 0 1300).chain.parkSet ≠ [] ∧ ({ (planning 0 1300).chain with plan := none } : Chain).plan = none) ∧
    -- DriveReportsTripAndTimersStop: the stations that a Presence report comes from
    (demo.role 70 = some .drive ∧ demo.role 60 = none ∧ demo.role 9 = some .brigade ∧ demo.role 30 = some .office) ∧
    -- PlanAnswersAreAdopted: the answer of section 6.12 marks three planes, of which the park set may have kept two
    (((parked [2330, 60, 150, 2380, 410, 480]).planAnswer (ask [1, 2, 3, 4, 5, 6] 15000 300)).unclosable.filter
      fun k => k ∈ [1, 2, 3, 5]) = [3, 5] ∧
    -- PollsAreAnswered: a Poll of Immediate mode with another waiting
    (({ unreported 0 with tables := demoTables } : Part).heldMode = false ∧ (unreported 0).chain.waitingPoll ≠ none) := by decide +kernel

/-- Orders of each kind in channel 1, with the records they have set. -/
def inChannel (record : RecordId) (order : Order) : Part :=
  { playing with
    slides := some { state := .opened, move := some .openMove } :: demo.slides.tail
    shutters := some { state := .opened, move := some .full } :: demo.shutters.tail
    posts := some { idlePost with current := some staffItem, phase := .inChannel, lookup := some (.pattern 0xB000#16 2), queue := [stepItem] } ::
      playing.posts.tail
    day := { demo.day with lastStep := some 2 }
    channels := { sendingClose with record, order } :: List.replicate 11 {} }

theorem witness_orders_and_owners :
    (∀ x ∈ [(RecordId.lamp, Order.lampsOn), (.slide 1, .slideOpen), (.shutter 1, .shutterFull), (.post 1, .playPhrase 1 1)],
      ((inChannel x.1 x.2).channel 1).deaf = false ∧ ((inChannel x.1 x.2).channel 1).record = x.1) ∧
    ((inChannel .lamp .lampsOn).slide 1 = some { state := .opened, move := some .openMove } ∧ slideMoveOf .slideOpen = some .openMove) ∧
    ((inChannel .lamp .lampsOn).shutterRec 1 = some { state := .opened, move := some .full } ∧ shutterMoveOf .shutterFull = some .full ∧
      ((inChannel .lamp .lampsOn).seq 1).state ≠ .sequencing ∧ (inChannel .lamp .lampsOn).pendingOrder (.shutter 1) = none) ∧
    (∃ r ∈ (inChannel .lamp .lampsOn).post 1, r.phase = .inChannel ∧ r.preempt = false ∧ r.queue = [stepItem] ∧
      r.current = some staffItem ∧ stepItem.source ≠ staffItem.source ∧ staffItem.rank < stepItem.rank) ∧
    ((inChannel .lamp .lampsOn).lookUp stepItem).isSome = true ∧ (7 : Nat) ≤ 7 := by decide +kernel

theorem witness_slide_and_shutter_clauses :
    -- a report Open of a closed slide changes its record in Halted; in Parked without a wanted set the chain may leave
    (let p : Part := { shutSlides with slides := some { state := .jammed } :: shutSlides.slides.tail }
     p.planesAt 81 = [1, 2] ∧ (p.plane 1).enabled = true ∧ p.slide 1 = some { state := .jammed } ∧ p.chain.mode = .halted) ∧
    ((moving .parked 0).chain.mode = .parked ∧ (moving .parked 0).wantedSet = []) ∧
    demo.role 81 = some .slide ∧ (demo.role 51 = some .shutter ∧ demo.shutterAt 51 = some 1) ∧ demo.role 5 = some .firePanel := by
  decide +kernel

theorem witness_post_clauses :
    -- an item whose call is gone is not taken back, nor the stream's once it has stopped; another call's is
    (¬demo.calls.any (fun c => c.id = 4) = true ∧ demo.fire.streamOn = false ∧ aCall ∈ playing.calls ∧ aCall.id = 4) ∧
    -- a step's item outranks a call's, and a step's item does not outrank another's
    (staffItem.rank < stepItem.rank ∧ stepItem.rank ≤ ({ stepItem with source := .step 1 } : Item).rank ∧
      ({ stepItem with source := .step 1 } : Item).source ≠ stepItem.source) ∧
    -- a stream item arrives where something plays, is being ordered, or waits for its order
    (∃ r ∈ playing.post 1, r.state = .playing ∧ r.queue.length < 7 ∧ ∃ cur ∈ r.current, cur.rank < ({ staffItem with source := .stream } : Item).rank) ∧
    (∃ r ∈ (inChannel (.post 1) (.playPhrase 1 1)).post 1, r.state = .idle ∧ r.phase = .inChannel) ∧
    ((inChannel (.post 1) (.playPhrase 1 1)).channel 1).state = .awaiting ∧
    (∃ r ∈ playing.post 2, r.state = .idle ∧ r.phase = .pending ∧ r.queue = []) ∧
    -- an Acknowledge of call 4 finds its item waiting at post 1 and pending at post 2
    (∃ r ∈ playing.post 2, ∃ it ∈ r.current, it.source = .call 4) ∧ (∃ r ∈ playing.post 1, r.phase = .confirmed ∧ r.state ≠ .idle) := by
  decide +kernel

theorem witness_ClockAdvancesTakeSteps_requests :
    (∃ st ∈ demo.steps, st.action = .opening ∧ st.start = true) ∧ demo.day.steps.length = 12 ∧ demo.sequences.length = 8 ∧
    (∃ r ∈ shutSlides.slide 1, 1 ∈ shutSlides.enabledPlanes ∧ r.state ≠ .opened ∧ r.move ≠ some .openMove) ∧
    (let p : Part := { demo with tables := demoTables.set 10 (rows 12 9 [[5, 0, 0, 12, 0, 0, 0, 0, 0]]), day := { demo.day with pointer := some 1 } }
     ∃ st ∈ p.steps, st.action = .night ∧ st.cue = 0 ∧ p.day.pointer = some st.number ∧ st.time = 12) ∧
    (let p : Part := { demo with tables := demoTables.set 5 newShutters }
     (p.shutter 1).night = true ∧ (p.seq 1).state = .idle ∧ (p.groupsOf 1).headD 0 = 1 ∧ p.groupOf 1 1 = [1] ∧
      p.shutterState 1 = .opened) ∧
    (∀ k ∈ demo.shuttersOf 2, (demo.shutter k).night = false) := by decide +kernel

/-! ## Further results from the rules -/

/-- R3, R96: a Held Poll whose port has gone Off is not answered, not even when the port is enabled again before the mark. -/
theorem test_poll_of_a_lost_port :
    let p : Part := { unreported 0 with chain := { (unreported 0).chain with waitingPoll := some { port := .w, source := 70, cycle := 9 } } }
    (out (.portDisable office 2) p).chain.waitingPoll = none ∧
    (out .endOfPeriodicMark (out (.portEnable office 2) (out (.portDisable office 2) p))).sent = [] := by decide +kernel

/-- R21: a port that goes Off keeps its training count, which reads 0 (R18). -/
theorem test_off_keeps_training :
    (out (.portDisable office 2) { demo with portW := { state := .training, training := 4 } }).portW.training = 4 := by decide +kernel

/-- R114, R123: a plane disabled while Parked is not ordered to close. -/
theorem test_disabled_plane_is_not_closed :
    (out (.chainPosition drive 1300 0 .braked 0#8)
      { closing with orders := [], tables := demoTables.set 4 newPlanes }).orders.all (fun o => o.record ≠ .slide 2) = true := by
  decide +kernel

/-- R134: a shutter that owes its Lower Full is given it once. -/
theorem test_owed_once :
    let p : Part := { lowering { state := .lowering, move := some .toPause, timer := 9, owed := true } with
      sequences := { state := .sequencing, cause := some .drop, group := 1, dropped := true } :: List.replicate 7 {} }
    let t := out (.shutterPosition { port := .n, source := 51 } .atPause) p
    (t.shutterRec 1).map (fun r => (r.move, r.owed)) = some (some .full, false) := by decide +kernel

/-- R142: an item for an unused post counts in that post's refused counter. -/
theorem test_unused_post_refuses : (out (.testPlay office 4 1 1 1) demo).postCounts.getD 3 {} = { refused := 1 } := by decide +kernel

/-- R155: the call table reads with the last call id first. -/
theorem test_last_call_is_read : ((demo.readObject 73 0).1, (demo.readObject 73 0).2) = (.done, [0#8]) := by decide +kernel

/-- R183: eighteen bytes of floor shutter records are three entries. -/
theorem test_records_read_together : ((demo.readObject 69 1).2).length = 18 := by decide +kernel

/-! ## Witnesses: conditions told, and clauses widened since -/

/-- Subscribers that are told everything: place 1 the office, place 2 another station. -/
def told (p : Part) : Part :=
  { p with tables := p.tables.set 13 (rows 5 4 [[30, 0, 0, 0], [30, 63, 255, 7], [31, 63, 255, 7]])
           notices := { sequences := [4, 255, 0, 0], lost := 0 } }

/-- As `burning`, with the Service gate effective as it is once a store is evacuated. -/
def ablaze : Part := told { burning with gates := { serviceEffective := true } }

/-- The states of the clauses that ask that nothing is left to bring up to date: of ClaimCellFollowsTheOrders, GatesFollowTheirSettings,
StartAndClearTrip, FaultsAndCountersAreCleared, AlarmInputIsDebounced and FireReportsEvacuate. -/
theorem witness_quiet :
    (told demo).quiet ∧ (told unclaimed).quiet ∧ (told { demo with claim := some 31 }).quiet ∧ (told { demo with claim := some 70 }).quiet ∧
    (told (sampled .trading true 24)).quiet ∧ ablaze.quiet ∧ (told demo).claim = some office.source := by
  unfold Part.quiet; decide +kernel

/-- R186: a Clear Counters whose reply finds a slot leaves received at 1, one whose reply waits at 0. -/
theorem test_clear_counters_counts_its_reply :
    (out (.clearCounters office) (told demo)).agent.counters = { received := 1 } ∧
    (out (.clearCounters office) { told demo with agent := { slots := List.replicate 8 (slotOf .part 1), counters := { aged := 4 } } }).agent.counters = {} := by
  decide +kernel

/-- R157 (log 75): the Confirm of a Call is built before the Notices of the post whose Test item its round pre-empts. -/
theorem test_confirm_before_pre_emption :
    let post : Post := { idlePost with state := .playing, current := some { stepItem with source := .test }, phase := .confirmed, deadline := 260,
                                       lookup := some (.phrase 5) }
    (out (.call { drive with source := 44 } .signal false 1 1#16 2 5) (told { demo with posts := some post :: demo.posts.tail })).agent.slots.map
      (fun y => y.frame.kind) = [kindConfirm, kindNotice, kindNotice] := by decide +kernel

/-- R28 (log 74): in one cycle start the slot that an aged frame frees goes to a Notice, not to the frame that waited. -/
theorem test_freed_slot_goes_to_notice :
    let t := out (.cycleStart false) (told { waiting with portS := { upPort with silence := 24 } })
    t.portS.state = .silent ∧ t.agent.waiting.length = 1 ∧ t.agent.slots.map (fun y => y.frame.kind) = [12, 12, 12, 12, 12, 12, kindNotice] := by
  decide +kernel

/-- The Notices of each condition that a statement names find their subscribers, in the two clauses for a holder with and without a place,
and the sequence of place 2 wraps. -/
theorem witness_notices :
    ((told demo).letters .claim false [30#8, 0#8]).map (fun x => x.1) = [1, 2] ∧
    ((told demo).letters .gateEffective true [2#8]).length = 2 ∧ ((told demo).letters .alarmInput true []).length = 2 ∧
    (ablaze.letters .fireZone true []).length = 2 ∧ ((told demo).letters .driveMode false [0#8, 1#8]).length = 2 ∧
    ((told demo).letters .portChange false [0#8, 1#8, 2#8]).length = 2 ∧ (told demo).notices.sequences.length = 4 ∧
    (∀ x ∈ (told demo).letters .claim false [30#8, 0#8], (told demo).reaches x.2 = true) := by decide +kernel

theorem witness_ClaimCellFollowsTheOrders_notices :
    (told unclaimed).role brigade.source = some .brigade ∧ (told unclaimed).claim = none ∧
    (told { demo with claim := some 31 }).notices.sequences.length = 4 ∧
    ((told { demo with claim := some 31 }).claim = some 31 ∧ ((told demo).place 2).station = 31 ∧ ((told demo).place 1).station ≠ 31) ∧
    ((told { demo with claim := some 70 }).claim = some 70 ∧ ∀ i ∈ placeNumbers, ((told demo).place i).station ≠ 70) := by decide +kernel

theorem witness_conditions_told :
    -- GatesFollowTheirSettings: the Signal gate closes at once, and opens again
    (let c : Ctx := { office with replyWanted := false }
     (out (.gateSet c 2) (told demo)).gates.signalEffective ≠ (told demo).gates.signalEffective ∧
      (told demo).claim = some c.source ∧ c.replyWanted = false) ∧
    -- StartAndClearTrip, AlarmInputIsDebounced and FireReportsEvacuate
    ((told demo).chain.mode = .halted ∧ (told demo).chain.record.freshness = .fresh) ∧
    ((told (sampled .trading true 24)).day.alarm = true ∧ (told (sampled .trading true 24)).day.alarmRun = 24) ∧
    (1 ∈ ablaze.fire.zones ∧ ablaze.role panel.source = some .firePanel) ∧
    -- SubscriptionsFillThePlaces: a full Agent Port loses what is told
    (let p : Part := { told demo with agent := { slots := List.replicate 7 (slotOf .part 1) } }
     (p.raiseEdge .claim false []).notices = { sequences := [5, 0, 0, 0], lost := 2 } ∧
      (p.raiseEdge .claim false []).agent = p.agent) := by decide +kernel

theorem witness_BeginServiceEntersTheDay_zones :
    (early [3, 1] false).fire.zones = [3, 1] ∧ (∀ y ∈ (early [3, 1] false).fire.zones, 1 ≤ y) ∧
    3 ∈ (early [3, 1] false).zoneCompartments 3 ∧ 3 ∉ (early [3, 1] false).fire.affected ∧ (early [3, 1] false).sequences.length = 8 ∧
    (∀ z ∈ (early [3, 1] false).fire.zones, 8 ∉ (early [3, 1] false).zoneCompartments z) := by decide +kernel

/-- The fire out after the Last Call step, with an escape shutter Paused, stream items waiting, pending and played. -/
def nightFire : Part :=
  let stream : Item := { content := .phrase 1, source := .stream, repeats := 1, enqueued := 9 }
  { burntOut with
    day := { burntOut.day with second := 60000 }
    tables := demoTables.set 10 (rows 12 9 [[2, 0, 0, 12, 0, 0, 0, 0, 0], [4, 0, 0, 13, 0, 0, 0, 0, 0]])
    shutters := [some { state := .paused }, some { state := .opened }, some { state := .opened, move := some .toPause }] ++ List.replicate 21 none
    posts := [some { idlePost with current := some stream, phase := .pending, lookup := some (.phrase 5) },
              some { idlePost with state := .playing, current := some stream, phase := .confirmed, deadline := 9, lookup := some (.phrase 5),
                                   queue := [staffItem] },
              some { state := .disabled }] ++ List.replicate 13 none }

theorem witness_RestoreEndsTheEvacuation_closed :
    nightFire.claim = some office.source ∧ nightFire.day.mode = .evacuation ∧ nightFire.day.alarm = false ∧ nightFire.fire.zones = [] ∧
    nightFire.computedMode ≠ .trading ∧ nightFire.computedMode ≠ .warning ∧
    ((nightFire.shutter 1).escape = true ∧ nightFire.shutterRec 1 = some { state := .paused }) ∧
    nightFire.shutterRec 2 = some { state := .opened } ∧
    (∃ r ∈ nightFire.post 1, r.phase = .pending ∧ r.queue = [] ∧ ∃ it ∈ r.current, it.source = .stream) ∧
    (∃ r ∈ nightFire.post 2, r.phase ≠ .pending) := by decide +kernel

/-- No Idle channel has a retry due, beside records whose timers and counts run. -/
theorem witness_CycleStartOpensTheCycle_idle :
    ∀ p ∈ [sliding, lowering { state := .lowering, move := some .toPause, timer := 1 }, sounding .playing staffItem],
      (∀ c ∈ channelNumbers, (p.channel c).state = .idle → (p.channel c).retryDue = false) ∧
      ∀ r ∈ [RecordId.slide 1, .shutter 1, .post 1], ∀ c ∈ channelNumbers, ¬((p.channel c).state ≠ .idle ∧ (p.channel c).record = r) := by
  decide +kernel

theorem witness_CycleStartOpensTheCycle_calm :
    (calmPart.calls.map fun c => c.id).Nodup ∧ calmPart.calm false := ⟨by decide, calmPart_calm⟩

theorem witness_FramesForThePartAreCommands_ports :
    ∀ st ∈ [PortState.training, .silent],
      let p : Part := told { demo with portN := { state := st } }
      p.portN.state = st ∧ checkPasses (wire 120 70 .drive 1 [3]) = true ∧ formPasses p.own (wire 120 70 .drive 1 [3]) = true ∧
      (parseFrame (wire 120 70 .drive 1 [3])).dest = p.own ∧ p.portN.slots.length < 3 ∧
      commandOf .n (parseFrame (wire 120 70 .drive 1 [3])) = some (.landingEdgeTrip drive) ∧
      (out (.frameReceived .n (wire 120 70 .drive 1 [3])) p).portN.state = .up := by decide +kernel

/-- A plan in progress for the report of this periodic part. -/
def unsettled : Part :=
  { planning 400 0 with
    chain := { (planning 400 0).chain with reportTaken := true, evaluated := false, evalPlan := some 7 }
    tables := demoTables.set 12 [bytesOf [1, 25, 25, 100, 3, 4, 1]] }

theorem witness_PollsAreAnswered_plan :
    unsettled.driveStation = some drive.source ∧ unsettled.periodic = true ∧ (unsettled.port drive.port).state.live = true ∧
    unsettled.heldMode = true ∧ unsettled.chain.waitingPoll = none ∧ unsettled.chain.evaluated = false ∧
    unsettled.park.inProgress = some (request 400 0) ∧ unsettled.chain.evalPlan = some (request 400 0).number := by decide +kernel

theorem witness_SlidesFollowTheirReports_faults :
    -- a Fault report of station 81 jams its two planes; a report Open of station 83 with no move ordered is unordered where it was not Open
    (demo.planesAt 81 = [1, 2] ∧ ((demo.planesAt 81).filter fun j => (demo.plane j).enabled && (demo.slide j).any fun r => r.state ≠ .jammed) = [1, 2]) ∧
    (demo.planesAt 83 = [3] ∧ (demo.plane 3).enabled = true ∧ demo.stationMove 83 = none) ∧
    (out (.slidePosition { port := .n, source := 81 } .fault) demo).faults =
      { first := some { code := .slideFault, cycle := 9, station := 81 }, further := 1 } ∧
    (out (.slidePosition { port := .n, source := 83 } .closed) demo).faults =
      { first := some { code := .slideMovedUnordered, cycle := 9, station := 83 } } := by decide +kernel

/-! ## Results from the rules, of points mended since -/

/-- R98: a Held Poll after a warm reset, in a periodic part whose report was evaluated before it, is answered at once. -/
theorem test_poll_after_warm_reset :
    let p : Part := { demo with chain := { demo.chain with reportTaken := true, evaluated := true }
                                tables := demoTables.set 12 [bytesOf [1, 25, 25, 100, 3, 4, 1]] }
    let t := out (.poll drive 9) (out (.reset office) p)
    t.chain.waitingPoll = none ∧ (t.sent.filter fun x => x.2.kind = kindAnswer).length = 1 := by decide +kernel

/-- R134: what a shutter is owed under the set dropped flag outlasts a second Drop Now. -/
theorem test_owed_outlasts_a_second_drop :
    let p : Part := { lowering { state := .lowered, owed := true } with
      sequences := { state := .sequencing, cause := some .drop, group := 1, dropped := true } :: List.replicate 7 {} }
    ((out (.dropNow panel 1#8) p).shutterRec 1).map (fun r => r.owed) = some true := by decide +kernel

/-- R45, R183 (log 13): the longest held frame's record is read in two parts, of which the second holds its age and eligibility. -/
theorem test_long_record_in_parts :
    let f := builtFrame 45 60 .service 12 false false (List.replicate 24 7#8)
    let p : Part := { demo with hold := [{ frame := f, arrival := .n, condition := .tradingHours, route := .port .s, age := 3, eligible := true, target := [.s] }] }
    (p.readObject 82 1).2.length = 21 ∧ (p.readObject 82 1).2 ++ (p.readObject 82 33).2 = (p.hold.map HoldEntry.bytes).flatten ∧
    p.readObject 82 65 = (.refusedRange, []) := by decide +kernel

/-- R139 (log 13): the eight items of a full queue are read two at a time. -/
theorem test_queue_is_read_whole :
    let q := List.replicate 7 stepItem ++ [staffItem]
    let p : Part := { demo with posts := [some { idlePost with queue := q }] ++ demo.posts.tail }
    (p.readObject 72 1).2 ++ (p.readObject 72 33).2 ++ (p.readObject 72 65).2 ++ (p.readObject 72 97).2 = (q.map Item.bytes).flatten ∧
    p.readObject 72 129 = (.refusedRange, []) ∧ p.readObject 72 2 = (.done, []) := by decide +kernel

/-- R137, R139 (log 60): a post's floor is the last byte of its record's reading. -/
theorem test_post_floor_is_read :
    (demo.readObject 71 1).2 ++ (demo.readObject 71 33).2 = (idlePost.bytes {} 3) ∧ (demo.readObject 71 33).2.getLast? = some 3#8 := by
  decide +kernel

/-- R145 (log 59): of a play order without reply the fault is told before the post's loss. -/
theorem test_fault_before_lost_post :
    let p : Part := told { inChannel (.post 1) (.playPhrase 1 1) with
      channels := { sendingClose with record := .post 1, target := 64, order := .playPhrase 1 1, triesLeft := 0, timer := 1 } :: List.replicate 11 {} }
    (out (.replyWindowExpired 1) p).agent.slots.map (fun y => (y.frame.dest, y.frame.payload.head?)) =
      [(30, some 14#8), (31, some 14#8), (30, some 7#8), (31, some 7#8)] := by decide +kernel

/-- R169: with several zones active the evacuation is caused by the lowest. -/
theorem test_lowest_zone : (out (.beginService office) (early [3, 1] false)).fire.cause = some (.report 1) := by decide +kernel

/-- R179, R184: a Force tells the previous holder, by its place's sequence where it has one. -/
theorem test_claim_forced :
    ((out (.force brigade) (told { demo with claim := some 31 })).notices.sequences = [5, 1, 0, 0]) ∧
    ((out (.force brigade) (told { demo with claim := some 70 })).agent.slots.map fun y => (y.frame.dest, y.frame.payload.take 2)) =
      [(30, [8#8, 4#8]), (31, [8#8, 255#8]), (70, [15#8, 0#8]), (9, [3#8, 0#8])] := by decide +kernel

/-! ## Witnesses: clauses on parking, flushed queues, resets, lowering and the feasibility record -/

/-- `chainLoaded` with a Plane Table of its own, committed or not. -/
def fitted (planes : List (List Nat)) (committed : Bool) : Part :=
  { chainLoaded with tables := demoTables.set 4 (rows 16 7 planes), committed := (List.replicate 14 true).set 4 committed }

/-- Section 6.3's arcs: three planes within 15 mm of one another; none enabled; three of which the third lies 1000 mm off. -/
theorem witness_ChainCommitForgetsThePosition_feasibility :
    (let p := fitted (demoTables[4]?.getD [] |>.map fun e => e.map BitVec.toNat) true
     p.isCommitted 5 = true ∧ p.enabledPlanes = [1, 2, 3] ∧ p.commitTest 4 [bytesOf chainRow] = none ∧
      (out (.commit office 4) p).park.feasibility = .yes 1245 1400 1322) ∧
    (let p := fitted [] false
     p.isCommitted 5 = false ∧ p.commitTest 4 [bytesOf chainRow] = none ∧ (out (.commit office 4) p).park.feasibility = .notKnown) ∧
    (let p := fitted [[85, 0, 4, 196, 3, 2, 10]] true
     p.enabledPlanes = [] ∧ (out (.commit office 4) p).park.feasibility = .yesEmpty) ∧
    (let p := fitted [[81, 0, 4, 166, 3, 6, 10], [82, 0, 0, 166, 3, 6, 10], [83, 0, 4, 181, 3, 6, 10]] true
     p.enabledPlanes = [1, 2, 3] ∧ p.commitTest 4 [bytesOf chainRow] = none ∧ (out (.commit office 4) p).park.feasibility = .no [1, 3]) := by
  decide +kernel

/-- Channel 1 Sending or Halting its only copy in Port W's queue, or in its burst. -/
def flushing (st : ChannelState) (tries : Nat) (burst : Bool) : Part :=
  { demo with
    portW := { upPort with counters := { flushed := 65534 }, queue := [queued .service] ++ (if burst then [] else [orderCopy])
                           sending := if burst then some orderCopy else none }
    channels := { sendingClose with state := st, transmitted := false, triesLeft := tries, stage := .unsent, timer := 0 } ::
      List.replicate 11 {} }

theorem witness_flushes :
    (∀ st ∈ [ChannelState.sending, .halting], ∀ tries ∈ [0, 1], ∀ burst ∈ [true, false],
      let p := flushing st tries burst
      p.portW.state.live = true ∧ p.portW.counters.flushed ≤ 65535 ∧ p.channels.length = 12 ∧
      (p.channel 1).stage = .unsent ∧ (p.channel 1).state = st ∧ (p.channel 1).triesLeft = tries ∧
      (∃ f ∈ p.portW.queue ++ p.portW.sending.toList, f.builder = .channel 1 (p.channel 1).build) ∧
      ∀ d ∈ channelNumbers, d ≠ 1 → (p.channel d).record ≠ (p.channel 1).record) ∧
    (out (.portDisable office 2) (flushing .sending 1 false)).channel 1 =
      { (flushing .sending 1 false).channel 1 with retryDue := true, stage := .none } ∧
    (out .overcurrent (flushing .sending 0 true)).channel 1 = ((flushing .sending 0 true).channel 1).finish .noReply ∧
    (out .overcurrent (flushing .halting 1 true)).channel 1 = ((flushing .halting 1 true).channel 1).finish .halted ∧
    (out (.portDisable office 2) (flushing .sending 1 false)).portW.counters.flushed = 65535 := by decide +kernel

/-- Frames in a slot, a queue and the Hold List, and a Poll waiting, as a warm reset falls. -/
def laden : Part :=
  { unreported 0 with
    portS := { upPort with counters := { flushed := 65534 }, queue := [queued .service]
                           slots := [{ frame := aFrame, builder := .station, target := [.n], age := 2, arrived := 8 }] }
    agent := { slots := [{ frame := aFrame, builder := .part, target := [.n], age := 2, arrived := 8 }] }
    hold := [{ frame := aFrame, arrival := .n, condition := .tradingHours, route := .port .s, age := 3, eligible := true, target := [.s] }] }

theorem witness_WarmResetBringsEveryBlockBack_counts :
    laden.claim = some office.source ∧ laden.day.mode ≠ .evacuation ∧ laden.portS.counters.flushed ≤ 65535 ∧
    laden.agent.counters.flushed ≤ 65535 ∧ laden.chain.waitingPoll = some { port := .n, source := 70, cycle := 9 } ∧
    (laden.port .n).state.live = true ∧
    (out (.reset office) laden).portS.counters.flushed = 65535 ∧ (out (.reset office) laden).portN.counters.flushed = 1 ∧
    (out (.reset office) laden).agent.counters.flushed = 1 ∧
    ((out (.reset office) laden).sent.map fun x => (x.1, x.2.dest, x.2.kind)) = [(.n, 70, kindAnswer)] := by decide +kernel

/-- A stop at 1300, clear of planes 1 and 3; plane 2, of the station of plane 1, is clear with them, or 1000 mm off. -/
def arriving (second : Nat) (set : List Nat) : Part :=
  { stopping set 0 0 with
    chain := { (stopping set 0 0).chain with
      record := { demo.chain.record with x := 1300, v := 0 }, evalPlan := some 7, waitingPoll := some { port := .n, source := 70, cycle := 9 } }
    tables := (demoTables.set 4 (rows 16 7 [[81, 0, 4, 166, 3, 6, 10], [81, 0, second, 171, 3, 6, 10], [83, 0, 4, 181, 3, 6, 10]])).set 12
      [bytesOf [1, 25, 25, 100, 3, 4, 1]]
    park := { demo.park with lastRequest := 7, inProgress := some { number := 7, parkSet := set, x := 1300, v := 0, stage := .run, speed := 0 } } }

theorem witness_closesTested :
    -- an answer Clear, with every plane of the stations clear: Closes on planes 1 and 3; with plane 2 off, plane 1 is withheld
    (∀ second ∈ [4, 0], let p := arriving second [1, 3]
      p.park.inProgress = some { number := 7, parkSet := [1, 3], x := 1300, v := 0, stage := .run, speed := 0 } ∧
      (p.planAnswer { number := 7, parkSet := [1, 3], x := 1300, v := 0, stage := .run, speed := 0 }).outcome = .clear ∧
      p.chain.evalPlan = some 7 ∧ p.chain.waitingPoll.isSome = true ∧ (p.port .n).state.live = true) ∧
    ((out .planCompleted (arriving 4 [1, 3])).orders.map fun o => (o.record, o.order)) = [(.slide 1, .slideClose), (.slide 3, .slideClose)] ∧
    (out .planCompleted (arriving 4 [1, 3])).withheld = [] ∧
    ((out .planCompleted (arriving 0 [1, 3])).orders.map fun o => (o.record, o.order)) = [(.slide 3, .slideClose)] ∧
    (out .planCompleted (arriving 0 [1, 3])).withheld = [1] ∧
    (out .planCompleted (arriving 0 [1, 3])).faults.first = some { code := .slideWithheld, cycle := 9, station := 81 } ∧
    ((out .planCompleted (arriving 4 [1, 3])).sent.map fun x => (x.1, x.2.dest, x.2.kind)) = [(.n, 70, kindAnswer)] ∧
    -- a report taken in Parked; and the waiting Poll is answered, as no plan is asked
    (let p : Part := { arriving 4 [1, 3] with
       chain := { (arriving 4 [1, 3]).chain with mode := .parked, plan := none, evalPlan := none }, park := demo.park }
     let t := out (.chainPosition drive 1300 0 .braked 0) p
     p.chain.mode = .parked ∧ t.park.inProgress = none ∧ (t.orders.map fun o => o.record) = [.slide 1, .slide 3] ∧
       t.chain.waitingPoll = none) := by decide +kernel

/-- Compartment 1 in a lowering of a given cause, its first shutter about to report At Pause or Lowered. -/
def descending (seq : LoweringSequence) (first second : ShutterRecord) : Part :=
  { lowering first with
    sequences := seq :: List.replicate 7 {}
    shutters := [some first, some second, some { state := .lowered }] ++ List.replicate 21 none }

theorem witness_ShuttersFollowTheirReports_sequences :
    let station : From := { port := .n, source := 51 }
    let going : LoweringSequence := { state := .sequencing, cause := some .night, group := 1 }
    let reported := fun (seq : LoweringSequence) (second : ShutterState) (pos : ShutterPos) =>
      out (.shutterPosition station pos) (descending seq { state := .lowering, move := some .full, timer := 5 } { state := second })
    ((descending going { state := .lowering } { state := .opened }).sequences.length = 8 ∧ 1 ∈ compartments ∧
      (demo.shutter 2).night = true ∧ demo.shuttersOf 1 = [1, 2, 3]) ∧
    -- group 2 is next, for the cause Night with its night-flagged shutter, Lower Full; after the last group the sequence is Complete
    (∀ cause ∈ [SequenceCause.night, .evacuation], let t := reported { going with cause := some cause } .opened .lowered
      t.seq 1 = { going with cause := some cause, group := 2 } ∧
      t.pendingOrder (.shutter 2) =
        some { record := .shutter 2, target := 52, order := .shutterFull, cls := .safety, placed := 9 }) ∧
    (reported { going with group := 2 } .paused .lowered).seq 1 = { going with group := 2, state := .complete } ∧
    -- under a set dropped flag: a shutter found Paused with no move ordered is given Lower Full again, one Jammed is owed it
    (let dropped : LoweringSequence := { going with cause := some .drop, group := 2, dropped := true }
     (out (.shutterPosition station .atPause) (descending dropped { state := .opened } { state := .opened })).pendingOrder (.shutter 1) =
       some { record := .shutter 1, target := 51, order := .shutterFull, cls := .safety, placed := 9 } ∧
     ((reported dropped .opened .fault).shutterRec 1).map (fun r => (r.state, r.owed)) = some (.jammed, true) ∧
     (reported dropped .lost .lowered).seq 1 = { dropped with state := .complete } ∧ (reported dropped .opened .lowered).seq 1 = dropped) := by
  decide +kernel

/-- R131, R134: a Drop Now leaves a compartment with nothing to lower Sequencing until a shutter's state changes, and one with no shutter
Complete. -/
theorem witness_StandingShuttersAreLowered_states :
    let p := descending {} { state := .lowered } { state := .jammed }
    p.groupOf 1 3 ≠ [] ∧ (p.seq 1).cause ≠ some .evacuation ∧ p.shuttersOf 8 = [] ∧
    (out (.dropNow panel 129#8) p).seq 1 = { state := .sequencing, cause := some .drop, group := 3, dropped := true } ∧
    ((out (.dropNow panel 129#8) p).seq 8).state = .complete ∧
    ((out (.shutterPosition { port := .n, source := 52 } .lowered) (out (.dropNow panel 1#8) (descending {} { state := .lowered }
      { state := .jammed, move := none }))).seq 1).state = .complete := by decide +kernel

/-- R85, R183: in Stopping with no plan adopted yet the reading of the plan has the stage of the request; in Halted it has none. -/
theorem test_plan_stage_of_the_request :
    let c : Chain := { mode := .stopping, stopStage := .run }
    c.planBytes.head? = some 2#8 ∧ ({ c with mode := .halted } : Chain).planBytes.head? = some 0#8 ∧
    ({ c with plan := some { stage := .creep, target := 5, travel := -1, moved := true } } : Chain).planBytes =
      bytesOf [1, 0, 0, 5, 255, 255, 255, 0] := by decide +kernel

/-- R114 (log 50), R174 (log 15), R190 (log 13): the floor in the reading of the fault record, the cause of an evacuation, and a port in two
entries of whole fields, the second followed by those of the next ports. -/
theorem test_readings :
    ({ demo with faults := { first := some { code := .slideJammed, cycle := 9, station := 81 } } } : Part).readObject 78 0 =
      (.done, bytesOf [13, 0, 9, 81, 0, 3]) ∧
    fireCauseBytes (some (.report 7)) = bytesOf [1, 7] ∧ fireCauseBytes (some .alarm) = bytesOf [2, 0] ∧
    (let p : Part := { demo with portN := { upPort with counters := { flushed := 258 } } }
     (p.readObject 65 0).2.length = 20 ∧ ((p.readObject 65 32).2.take 4) = bytesOf [1, 2, 2, 0] ∧ (p.readObject 65 32).2.length = 19 ∧
      p.readObject 65 64 = (.refusedRange, [])) := by decide +kernel

end Sys2Proof.Tests
end

section
/-! PROOFS. The Stop order by the drive mode (R91): what entering Stopping changes and leaves unchanged, that the reply an order earns is
not lost by what follows the command, and the two together for Stop. -/

namespace Sys2Proof.Machine

/-! ## The Agent Port keeps what it was given -/

/-- Every frame of one Agent Port, in a slot or waiting, is in the other. -/
def AgentPort.keptIn (a b : AgentPort) : Prop := a.slots ⊆ b.slots ∧ a.waiting ⊆ b.waiting

theorem AgentPort.keptIn_refl (a : AgentPort) : a.keptIn a := ⟨fun _ h => h, fun _ h => h⟩

theorem AgentPort.keptIn.trans {a b c : AgentPort} (hab : a.keptIn b) (hbc : b.keptIn c) : a.keptIn c :=
  ⟨fun _ h => hbc.1 (hab.1 h), fun _ h => hbc.2 (hab.2 h)⟩

theorem Part.agentAccept_keeps (p : Part) (f : Frame) (b : Builder) : p.agent.keptIn (p.agentAccept f b).1.agent := by
  unfold Part.agentAccept
  dsimp only
  split
  · exact ⟨List.subset_append_left _ _, fun _ h => h⟩
  · exact p.agent.keptIn_refl

theorem Part.noticeTo_keeps (p : Part) (c : Condition) (fall : Bool) (d : List Byte) (i : Nat) :
    p.agent.keptIn (p.noticeTo c fall d i).agent := by
  unfold Part.noticeTo Part.sendNotice
  dsimp only
  split
  · split
    · exact p.agentAccept_keeps _ _
    · exact p.agent.keptIn_refl
  · exact p.agent.keptIn_refl

theorem Part.raiseEdge_keeps (p : Part) (c : Condition) (fall : Bool) (d : List Byte) :
    p.agent.keptIn (p.raiseEdge c fall d).agent := by
  unfold Part.raiseEdge
  generalize placeNumbers = l
  induction l generalizing p with
  | nil => exact p.agent.keptIn_refl
  | cons i l ih => exact (p.noticeTo_keeps c fall d i).trans (ih _)

theorem Part.gateNow_keeps (p : Part) (g : Gate) : p.agent.keptIn (p.gateNow g).agent := by
  unfold Part.gateNow
  dsimp only
  split
  · exact p.agent.keptIn_refl
  · exact Part.raiseEdge_keeps { p with gates := p.gates.setEffective g _ } _ _ _

/-- What follows every command takes no frame out of the Agent Port (log 21). -/
theorem Part.settle_keeps (p : Part) : p.agent.keptIn p.settle.agent := by
  obtain ⟨q, hq, -, hagent, -, -⟩ := p.settle_gates
  rw [hq, ← hagent]
  exact (q.gateNow_keeps .signal).trans (Part.gateNow_keeps _ .service)

/-! ## Replies (R180) -/

/-- An accepted frame whose route has a port stands in a slot with that target set (R28, R38). -/
theorem Part.agentAccept_slot {p : Part} {f : Frame} {ps : List PortId} (h : p.resolve none (p.routeFor f.dest) = .target ps)
    (b : Builder) : ∃ x ∈ (p.agentAccept f b).1.agent.slots, x.frame = f ∧ x.target = ps := by
  have h' : (p.countAgent .received).resolve none ((p.countAgent .received).routeFor f.dest) = .target ps := h
  unfold Part.agentAccept
  simp only [h']
  exact ⟨_, List.mem_append_right _ (List.mem_singleton.mpr rfl), rfl, rfl⟩

/-- An offered frame with room in the Agent Port is carried; one without room waits there (R28). -/
theorem Part.offer_carries (p : Part) (f : Frame) (b : Builder) : (p.offer f b).carries p f := by
  intro room ps route
  unfold Part.offer
  rw [if_pos room]
  exact Part.agentAccept_slot route b

theorem Part.offer_waits {p : Part} {f : Frame} (h : ¬p.agentRoom f.cls = true) (b : Builder) :
    ∃ w ∈ (p.offer f b).agent.waiting, w.frame = f := by
  unfold Part.offer
  rw [if_neg h]
  exact ⟨_, List.mem_append_right _ (List.mem_singleton.mpr rfl), rfl⟩

/-- The reply to an order that is not refused for the claim is the frame that R180 names, offered where R12 asks for it. -/
theorem Part.replyTo_eq_offer (p : Part) (c : Ctx) (code : Nat) {r : ManageResult} (hr : r ≠ .refusedClaim) (d : List Byte)
    (due : r ≠ .done ∨ c.replyWanted = true ∨ code = 4) :
    p.replyTo c code { result := r, data := d } = p.offer (p.replyFrame c code r 0 d) .part := by
  have hdue : replies c code r = true := by simpa [replies, or_assoc] using due
  unfold Part.replyTo
  simp only [hdue, if_true, if_neg hr]
  rfl

/-- The reply is carried, also when the part has been settled after it. -/
theorem Part.settle_replyTo_replied (p : Part) (c : Ctx) (code : Nat) {r : ManageResult} (hr : r ≠ .refusedClaim) (d : List Byte) :
    (p.replyTo c code { result := r, data := d }).settle.replied p c code r 0 d := by
  intro due room ps route
  obtain ⟨x, hx, hframe⟩ := p.offer_carries (p.replyFrame c code r 0 d) .part room ps route
  rw [p.replyTo_eq_offer c code hr d due]
  exact ⟨x, (Part.settle_keeps _).1 hx, hframe⟩

/-- The reply is carried or waits for a slot, also when the part has been settled after it. -/
theorem Part.settle_replyTo_answered (p : Part) (c : Ctx) (code : Nat) {r : ManageResult} (hr : r ≠ .refusedClaim) :
    (p.replyTo c code { result := r, data := [] }).settle.orderAnswered p c code r := by
  intro due ps route
  rw [p.replyTo_eq_offer c code hr [] due]
  by_cases room : p.agentRoom (p.replyFrame c code r 0 []).cls = true
  · obtain ⟨x, hx, hframe, -⟩ := p.offer_carries _ .part room ps route
    exact .inl ⟨x, (Part.settle_keeps _).1 hx, hframe⟩
  · obtain ⟨w, hw, hframe⟩ := Part.offer_waits room .part
    exact .inr ⟨w, (Part.settle_keeps _).2 hw, hframe⟩

/-! ## Lamp orders -/

/-- A pending order that is not a slide's outlives the test of the pending Closes (R122). -/
theorem Part.recheckCloses_pendingOrder (p : Part) {r : RecordId} (h : ∀ k, r ≠ .slide k) :
    p.recheckCloses.pendingOrder r = p.pendingOrder r := by
  unfold Part.recheckCloses
  generalize planeNumbers = l
  induction l generalizing p with
  | nil => rfl
  | cons k l ih =>
    rw [List.foldl_cons, ih]
    unfold Part.recheckClose
    split
    · unfold Part.pendingOrder Part.modSlide
      rw [List.find?_filter]
      congr 1
      funext o
      by_cases ho : o.record = r
      · simp [PendingOrder.closes, ho, h k]
      · simp [ho]
    · rfl

/-- What follows every command leaves a pending order that is not a slide's (log 21). -/
theorem Part.settle_pendingOrder (p : Part) {r : RecordId} (h : ∀ k, r ≠ .slide k) : p.settle.pendingOrder r = p.pendingOrder r := by
  have hgate : ∀ (q : Part) (g : Gate), (q.gateNow g).pendingOrder r = q.pendingOrder r := by
    intro q g
    obtain ⟨⟨a, x, hg⟩, -⟩ := q.gateNow_changes g
    rw [hg]
    rfl
  have heval : ∀ q : Part, q.settleEvaluation.pendingOrder r = q.pendingOrder r := by
    intro q
    obtain ⟨l, c, he⟩ := q.settleEvaluation_changes
    rw [he]
    rfl
  have hhold : ∀ q : Part, q.evaluateHold.pendingOrder r = q.pendingOrder r := fun _ => rfl
  unfold Part.settle Part.gatesNow
  rw [hgate, hgate, hhold, heval, Part.recheckCloses_pendingOrder _ h]
  rfl

/-- Parts equal but for what follows every command have the same state of the lamps last ordered (R92). -/
theorem Part.lamp_of_steady {p q : Part} (h : p.steady = q.steady) : p.chain.lamp = q.chain.lamp :=
  show p.steady.chain.lamp = q.steady.chain.lamp from h ▸ rfl

/-- The lamp order of a change of drive mode outlives what follows the command. -/
theorem Part.settle_lampsOrdered {t p : Part} {on : Bool} (h : t.lampsOrdered p on) : t.settle.lampsOrdered p on := by
  intro st hst
  obtain ⟨hlamp, horder⟩ := h st hst
  refine ⟨(Part.lamp_of_steady t.settle_steady).trans hlamp, fun hne => ?_⟩
  rw [t.settle_pendingOrder (by simp)]
  exact horder hne

theorem Part.replyTo_lampsOrdered {t p : Part} {on : Bool} (h : t.lampsOrdered p on) (c : Ctx) (code : Nat) (x : Answer) :
    (t.replyTo c code x).lampsOrdered p on := by
  obtain ⟨a, ha⟩ := t.replyTo_changes c code x
  rw [ha]
  exact h

/-- A drive mode that requires a lamp state has it ordered (R92). -/
theorem Part.orderLamps_lampsOrdered (p : Part) {m : DriveMode} {on : Bool} (hm : lampFor m = some on) :
    (p.orderLamps m).lampsOrdered p on := by
  intro st hst
  have hst : p.driveStation = some st := hst
  unfold Part.orderLamps
  simp only [hm, hst]
  split
  · next h => exact ⟨h, fun hne => absurd h hne⟩
  · exact ⟨rfl, fun _ => p.pendingOrder_placeOrder _ _ _ _⟩

/-- A lamp order changes the lamps' orders and the state of the lamps last ordered alone (R92). -/
theorem Part.orderLamps_changes (p : Part) (m : DriveMode) :
    ∃ o l, p.orderLamps m = { p with orders := o, chain := { p.chain with lamp := l } } ∧
      o.filter (fun x => x.record ≠ .lamp) = p.orders.filter fun x => x.record ≠ .lamp := by
  unfold Part.orderLamps
  split
  · split
    · exact ⟨p.orders, p.chain.lamp, rfl, rfl⟩
    · exact ⟨_, _, rfl, by simp [Part.placeOrder]⟩
  · exact ⟨p.orders, p.chain.lamp, rfl, rfl⟩

/-! ## Changes of drive mode -/

theorem Part.offChain_of_steady {p q : Part} (h : p.steady = q.steady) : p.offChain = q.offChain := by
  unfold Part.offChain
  rw [h]

/-- The orders that `offChain` compares are none of the lamps'. -/
theorem offChain_orders (os : List PendingOrder) :
    (os.filter fun o => o.order ≠ .slideClose).filter (fun o => o.ofShutter || o.ofPost) =
      ((os.filter fun o => o.record ≠ .lamp).filter fun o => o.order ≠ .slideClose).filter fun o => o.ofShutter || o.ofPost := by
  simp only [List.filter_filter]
  congr 1
  funext o
  by_cases h : o.record = .lamp
  · simp [PendingOrder.ofShutter, PendingOrder.ofPost, h]
  · simp [h]

theorem Part.orderLamps_offChain (p : Part) (m : DriveMode) : (p.orderLamps m).offChain = p.offChain := by
  obtain ⟨o, l, h, horders⟩ := p.orderLamps_changes m
  rw [h]
  unfold Part.offChain Part.steady
  simp only [offChain_orders o, horders, ← offChain_orders p.orders]

/-- The part that a change of drive mode starts from: the Chain Supervisor's fields and the Park Computer's as the new mode has them,
before the condition is raised (R80, R83, R89, R90, R108). -/
def Part.withMode (p : Part) (m : DriveMode) : Part :=
  let c := p.chain
  let stays := m = .stopping || m = .parked
  { p with
    chain := { c with
      mode := m
      clearing := if m = .lastCall then c.clearing else 0
      plan := none
      replans := if m = .stopping then 0 else c.replans
      parkSet := if stays then c.parkSet else []
      unclosable := if stays then c.unclosable else []
      armed := c.armed && m ≠ .tripped }
    park := { p.park with inProgress := none }
    withheld := if stays then p.withheld else [] }

theorem Part.setDriveMode_of_ne {p : Part} {m : DriveMode} (h : p.chain.mode ≠ m) :
    p.setDriveMode m = (((p.withMode m).raise .driveMode
      [byteOf (driveModeCode p.chain.mode), byteOf (driveModeCode m)]).orderLamps m).restage := by
  unfold Part.setDriveMode
  rw [if_neg h]
  rfl

/-- A change of drive mode changes, besides what the new mode starts with, the Agent Port, the Notices, the lamps and the staged permit. -/
theorem Part.setDriveMode_changes {p : Part} {m : DriveMode} (h : p.chain.mode ≠ m) :
    ∃ a x o l st, p.setDriveMode m = { p.withMode m with
      agent := a, notices := x, orders := o, chain := { (p.withMode m).chain with lamp := l, staged := st } } := by
  rw [Part.setDriveMode_of_ne h]
  obtain ⟨a, x, hraise⟩ := (p.withMode m).raise_changes .driveMode [byteOf (driveModeCode p.chain.mode), byteOf (driveModeCode m)]
  rw [hraise]
  obtain ⟨o, l, hlamps, -⟩ := Part.orderLamps_changes { p.withMode m with agent := a, notices := x } m
  rw [hlamps]
  exact ⟨a, x, o, l, _, rfl⟩

/-- A change of drive mode is the Chain Supervisor's and its neighbours' alone. -/
theorem Part.setDriveMode_offChain {p : Part} {m : DriveMode} (h : p.chain.mode ≠ m) : (p.setDriveMode m).offChain = p.offChain := by
  rw [Part.setDriveMode_of_ne h, Part.offChain_of_steady (Part.restage_steady _), Part.orderLamps_offChain,
    Part.offChain_of_steady (Part.raise_steady _ _ _)]
  rfl

theorem Part.setDriveMode_lampsOrdered {p : Part} {m : DriveMode} {on : Bool} (h : p.chain.mode ≠ m) (hm : lampFor m = some on) :
    (p.setDriveMode m).lampsOrdered p on := by
  rw [Part.setDriveMode_of_ne h]
  obtain ⟨a, x, hraise⟩ := (p.withMode m).raise_changes .driveMode [byteOf (driveModeCode p.chain.mode), byteOf (driveModeCode m)]
  rw [hraise]
  exact Part.orderLamps_lampsOrdered { p.withMode m with agent := a, notices := x } hm

/-! ## Stopping entered at stage Run (R84) -/

/-- The part with the park set and the stage that a stop is to be for, and no plane marked. -/
def Part.withParkSet (p : Part) (set : List Nat) (stage : Stage) : Part :=
  { p with chain := { p.chain with parkSet := set, unclosable := [], stopStage := stage } }

theorem Part.enterStopping_eq (p : Part) (set : List Nat) (stage : Stage) :
    p.enterStopping set stage = ((p.withParkSet set stage).setDriveMode .stopping).requestPlan stage := rfl

/-- The request for the first plan of a stop: at stage Run, from the record's x and v (R84, R107). -/
def Part.runRequest (p : Part) (set : List Nat) : PlanRequest :=
  { number := (p.park.lastRequest + 1) % 65536, parkSet := set, x := p.chain.record.x, v := p.chain.record.v,
    stage := .run, speed := p.chain.record.v }

/-- Stopping entered from another drive mode: what the Chain Supervisor and the Park Computer hold then. -/
theorem Part.enterStopping_run {p : Part} (h : p.chain.mode ≠ .stopping) (set : List Nat) :
    ∃ a x o l st, p.enterStopping set .run = { p with
      agent := a, notices := x, orders := o
      chain := { p.chain with
        mode := .stopping, clearing := 0, plan := none, replans := 0, stopStage := .run, parkSet := set, unclosable := [],
        lamp := l, staged := st }
      park := { p.park with lastRequest := (p.park.lastRequest + 1) % 65536, inProgress := some (p.runRequest set) } } := by
  obtain ⟨a, x, o, l, st, hmode⟩ := Part.setDriveMode_changes (p := p.withParkSet set .run) h
  refine ⟨a, x, o, l, st, ?_⟩
  rw [Part.enterStopping_eq, hmode]
  simp [Part.requestPlan, Part.withMode, Part.withParkSet, Part.runRequest]

theorem Part.enterStopping_offChain {p : Part} (h : p.chain.mode ≠ .stopping) (set : List Nat) (stage : Stage) :
    (p.enterStopping set stage).offChain = p.offChain :=
  Part.setDriveMode_offChain (p := p.withParkSet set stage) h

theorem Part.enterStopping_lampsOrdered {p : Part} (h : p.chain.mode ≠ .stopping) (set : List Nat) (stage : Stage) :
    (p.enterStopping set stage).lampsOrdered p false :=
  Part.setDriveMode_lampsOrdered (p := p.withParkSet set stage) h rfl

/-- The wanted park set is made of the enabled planes, which are those in use with their enabled flag set (R83, R114). -/
theorem Part.wantedSet_byMode (p : Part) : p.wantedByMode := by
  unfold Part.wantedByMode Part.wantedSet
  have henabled : p.enabledPlanes = planeNumbers.filter fun k => (p.plane k).inUse && (p.plane k).flagEnabled := rfl
  cases p.day.mode <;> simp [henabled, List.filter_filter, Bool.and_comm]

/-! ## The Stop order -/

theorem Part.takeManage_stop {p : Part} {c : Ctx} (h : p.claim = some c.source) :
    p.takeManage c .stop = p.takeStop.1.replyTo c 14 { result := p.takeStop.2, data := [] } := by
  simp [Part.takeManage, Part.asksReset, Part.obey, Part.orderData, ManageOrder.code, h]

/-- The part with its start-armed flag cleared (R91). -/
def Part.disarmed (p : Part) : Part := { p with chain := { p.chain with armed := false } }

/-- A chain in Running or LastCall stops (R91). -/
theorem Part.takeStop_moving {p : Part} (h : p.chain.mode = .running ∨ p.chain.mode = .lastCall) :
    p.takeStop = (p.disarmed.enterStopping (if p.chain.mode = .running then [] else p.wantedSet) .run, .done) := by
  unfold Part.takeStop
  dsimp only
  split
  · next hmode => rw [if_pos hmode]; rfl
  · next hmode => rw [if_neg (by simp [hmode])]; rfl
  all_goals next hmode => simp [hmode] at h

/-- In the other drive modes Stop clears the start-armed flag alone (R91). -/
theorem Part.takeStop_resting {p : Part} (hr : p.chain.mode ≠ .running) (hl : p.chain.mode ≠ .lastCall) :
    p.takeStop = (p.disarmed, .done) := by
  unfold Part.takeStop
  dsimp only
  split
  · next hmode => exact absurd hmode hr
  · next hmode => exact absurd hmode hl
  all_goals rfl

/-- A Stop order of the claim holder that leaves `q` and is Done replies to it and settles. -/
theorem Part.act_stop {p q : Part} {c : Ctx} (hclaim : p.claim = some c.source)
    (h : ({ p with sent := [] } : Part).takeStop = (q, .done)) :
    p.act (fun x => x.takeManage c .stop) = (q.replyTo c 14 { result := .done, data := [] }).settle := by
  have hmanage := Part.takeManage_stop (p := { p with sent := [] }) hclaim
  rw [h] at hmanage
  exact congrArg Part.settle hmanage

/-- An order's reply and what follows the command leave the part steady. -/
theorem Part.settle_replyTo_steady (p : Part) (c : Ctx) (code : Nat) (x : Answer) : (p.replyTo c code x).settle.steady = p.steady :=
  (Part.settle_steady _).trans (p.replyTo_steady c code x)

/-- An order answered by a part that differs from another in the Chain Supervisor and its neighbours alone is answered for that other too. -/
theorem Part.orderAnswered_of_offChain {t p q : Part} {c : Ctx} {code : Nat} {r : ManageResult} (h : q.offChain = p.offChain)
    (hq : t.orderAnswered q c code r) : t.orderAnswered p c code r := by
  have hq : t.orderAnswered q.offChain c code r := hq
  rw [h] at hq
  exact hq

/-- The clearing timer runs in LastCall alone (R84). -/
theorem clearingTimerExpired_idle {t : Part} (h : t.chain.mode ≠ .lastCall) :
    Gives .clearingTimerExpired { part := t, pending := [] } fun u => u.steady = t.steady := by
  refine gives_of_run Part.clearingRunsOut (exec_clearingTimerExpired _) ?_
  rw [Part.act_steady]
  simp only [Part.clearingRunsOut, h]
  rfl

/-- A stop with its order answered and everything settled. -/
theorem Part.settled_stop {t p : Part} {set : List Nat} {c : Ctx} (h : p.chain.mode ≠ .stopping)
    (ht : ((p.enterStopping set .run).replyTo c 14 { result := .done, data := [] }).settle = t) :
    t.chain.mode = .stopping ∧ t.chain.parkSet = set ∧ t.chain.unclosable = [] ∧ t.chain.plan = none ∧ t.chain.replans = 0 ∧
    t.chain.armed = p.chain.armed ∧ t.chain.record = p.chain.record ∧
    t.park.inProgress = some (p.runRequest set) ∧
    p.wantedByMode ∧ t.lampsOrdered p false ∧ t.offChain = p.offChain ∧ t.faults = p.faults ∧ t.orderAnswered p c 14 .done ∧
    Gives .clearingTimerExpired { part := t, pending := [] } fun u => u.steady = t.steady := by
  have hsteady : t.steady = (p.enterStopping set .run).steady := by rw [← ht, Part.settle_replyTo_steady]
  have hlamps : t.lampsOrdered p false := by
    rw [← ht]
    exact Part.settle_lampsOrdered (Part.replyTo_lampsOrdered (Part.enterStopping_lampsOrdered h set .run) _ _ _)
  have hoff := Part.enterStopping_offChain h set .run
  have hanswer : t.orderAnswered p c 14 .done := by
    rw [← ht]
    exact Part.orderAnswered_of_offChain hoff (Part.settle_replyTo_answered _ c 14 (by decide))
  have hchain : t.offChain = p.offChain := (Part.offChain_of_steady hsteady).trans hoff
  obtain ⟨a, x, o, l, st, hstop⟩ := Part.enterStopping_run h set
  rw [hstop] at hsteady
  have field {α : Type} (f : Part → α) := congrArg f hsteady
  have hmode : t.chain.mode = .stopping := field (·.chain.mode)
  exact ⟨hmode, field (·.chain.parkSet), field (·.chain.unclosable), field (·.chain.plan), field (·.chain.replans),
    field (·.chain.armed), field (·.chain.record), field (·.park.inProgress), p.wantedSet_byMode, hlamps, hchain, field (·.faults),
    hanswer, clearingTimerExpired_idle (by simp [hmode])⟩

/-- Settles O26: in Running and LastCall Stopping is entered at stage Run; in the other drive modes the start-armed flag alone is cleared. -/
theorem stopBringsTheChainToRest : Obligations.StopBringsTheChainToRest := by
  intro c s hclaim
  refine gives_of_run (fun p => p.takeManage c .stop) (exec_stop c s) ⟨fun h => ?moving, fun hr hl => ?resting⟩
  case moving =>
    rw [Part.act_stop hclaim (Part.takeStop_moving h)]
    have hne : ({ s.part with sent := [] } : Part).disarmed.chain.mode ≠ .stopping := by
      show s.part.chain.mode ≠ .stopping
      rcases h with h | h <;> simp [h]
    generalize ht : Part.settle _ = t
    exact Part.settled_stop hne ht
  case resting =>
    rw [Part.act_stop hclaim (Part.takeStop_resting hr hl)]
    have hsteady := Part.settle_replyTo_steady ({ s.part with sent := [] } : Part).disarmed c 14 { result := .done, data := [] }
    have hreply := Part.settle_replyTo_replied ({ s.part with sent := [] } : Part).disarmed c 14 (r := .done) (by decide) []
    generalize Part.settle _ = t at hsteady hreply ⊢
    exact ⟨hsteady, hreply⟩

end Sys2Proof.Machine
end

section
/-! PROOFS. Clear Fault and Clear Counters (R186): an order of the claim holder carried out, what a frame of the part's own can count at the
Agent Port, when what follows a command builds no Notice, and the two orders. -/

namespace Sys2Proof.Machine

/-! ## Counting at the Agent Port (R28, R30, R38) -/

/-- Of the eleven counters, all but received and unroutable are 0. -/
def Counters.arrivalsOnly (n : Counters) : Prop := n = { received := n.received, unroutable := n.unroutable }

theorem Counters.arrivalsOnly_bump {n : Counters} (h : n.arrivalsOnly) {c : Counter} (hc : c = .received ∨ c = .unroutable) :
    (n.bump c).arrivalsOnly := by
  unfold Counters.arrivalsOnly at h
  rw [h]
  rcases hc with rfl | rfl
  · rfl
  · rfl

/-- Without a port of arrival a route without a port is unroutable, never local (R36, R38). -/
theorem Part.resolve_own_discard {p : Part} {r : Route} {c : Counter} (h : p.resolve none r = .discard c) : c = .unroutable := by
  cases r with
  | none => exact (Resolution.discard.inj h).symm
  | port q =>
    dsimp only [Part.resolve] at h
    rw [if_neg (Option.some_ne_none q).symm] at h
    split at h
    · cases h
    · exact (Resolution.discard.inj h).symm
  | flood =>
    dsimp only [Part.resolve] at h
    split at h
    · exact (Resolution.discard.inj h).symm
    · cases h

/-- A frame of the part's own is counted as received and, where it has no route, as unroutable (R28, R38). -/
theorem Part.agentAccept_counters (p : Part) (f : Frame) (b : Builder) :
    (p.agentAccept f b).1.agent.counters = p.agent.counters.bump .received ∨
    (p.agentAccept f b).1.agent.counters = (p.agent.counters.bump .received).bump .unroutable := by
  unfold Part.agentAccept
  dsimp only
  split
  · exact .inl rfl
  · next h => rw [Part.resolve_own_discard h]; exact .inr rfl

theorem Part.agentAccept_arrivalsOnly {p : Part} (h : p.agent.counters.arrivalsOnly) (f : Frame) (b : Builder) :
    (p.agentAccept f b).1.agent.counters.arrivalsOnly := by
  have hreceived := Counters.arrivalsOnly_bump h (.inl rfl)
  rcases p.agentAccept_counters f b with hcount | hcount
  · rw [hcount]; exact hreceived
  · rw [hcount]; exact Counters.arrivalsOnly_bump hreceived (.inr rfl)

theorem Part.offer_arrivalsOnly {p : Part} (h : p.agent.counters.arrivalsOnly) (f : Frame) (b : Builder) :
    (p.offer f b).agent.counters.arrivalsOnly := by
  unfold Part.offer
  split
  · exact Part.agentAccept_arrivalsOnly h f b
  · exact h

theorem Part.noticeTo_arrivalsOnly {p : Part} (h : p.agent.counters.arrivalsOnly) (c : Condition) (fall : Bool) (d : List Byte) (i : Nat) :
    (p.noticeTo c fall d i).agent.counters.arrivalsOnly := by
  unfold Part.noticeTo Part.sendNotice
  dsimp only
  split
  · split
    · exact Part.agentAccept_arrivalsOnly h _ _
    · exact h
  · exact h

theorem Part.raiseEdge_arrivalsOnly {p : Part} (h : p.agent.counters.arrivalsOnly) (c : Condition) (fall : Bool) (d : List Byte) :
    (p.raiseEdge c fall d).agent.counters.arrivalsOnly := by
  unfold Part.raiseEdge
  generalize placeNumbers = l
  induction l generalizing p with
  | nil => exact h
  | cons i l ih => exact ih (Part.noticeTo_arrivalsOnly h c fall d i)

theorem Part.gateNow_arrivalsOnly {p : Part} (h : p.agent.counters.arrivalsOnly) (g : Gate) :
    (p.gateNow g).agent.counters.arrivalsOnly := by
  unfold Part.gateNow
  dsimp only
  split
  · exact h
  · exact Part.raiseEdge_arrivalsOnly (p := { p with gates := p.gates.setEffective g _ }) h _ _ _

/-- What follows every command counts nothing at the Agent Port but its own Notices' arrivals (log 21). -/
theorem Part.settle_arrivalsOnly {p : Part} (h : p.agent.counters.arrivalsOnly) : p.settle.agent.counters.arrivalsOnly := by
  obtain ⟨q, hq, -, hagent, -, -⟩ := p.settle_gates
  rw [hq]
  exact Part.gateNow_arrivalsOnly (Part.gateNow_arrivalsOnly (hagent ▸ h) .signal) .service

theorem Part.replyTo_arrivalsOnly {p : Part} (h : p.agent.counters.arrivalsOnly) (c : Ctx) (code : Nat) (x : Answer) :
    (p.replyTo c code x).agent.counters.arrivalsOnly := by
  unfold Part.replyTo
  split
  · exact Part.offer_arrivalsOnly h _ .part
  · exact h

/-- One frame offered to an Agent Port without counts leaves both counts of arrivals at most 1. -/
theorem Part.offer_counters_le {p : Part} (h : p.agent.counters = {}) (f : Frame) (b : Builder) :
    (p.offer f b).agent.counters.received ≤ 1 ∧ (p.offer f b).agent.counters.unroutable ≤ 1 := by
  unfold Part.offer
  split
  · rcases p.agentAccept_counters f b with hcount | hcount <;> rw [hcount, h] <;> decide
  · rw [h]; decide

theorem Part.replyTo_counters_le {p : Part} (h : p.agent.counters = {}) (c : Ctx) (code : Nat) (x : Answer) :
    (p.replyTo c code x).agent.counters.received ≤ 1 ∧ (p.replyTo c code x).agent.counters.unroutable ≤ 1 := by
  unfold Part.replyTo
  split
  · exact Part.offer_counters_le h _ .part
  · rw [h]; decide

/-- An order that is Done and asks for no reply gets none, a Read apart (R12). -/
theorem Part.replyTo_unwanted (p : Part) {c : Ctx} {code : Nat} (hwanted : c.replyWanted = false) (hcode : code ≠ 4) (d : List Byte) :
    p.replyTo c code { result := .done, data := d } = p := by
  simp [Part.replyTo, replies, hwanted, hcode]

/-! ## What follows a command, without a Notice and without a late Answer -/

/-- Without a subscriber a raised condition changes nothing (R184). -/
theorem Part.raiseEdge_unsubscribed {p : Part} (h : ∀ i ∈ placeNumbers, (p.place i).station = 0) (c : Condition) (fall : Bool)
    (d : List Byte) : p.raiseEdge c fall d = p := by
  unfold Part.raiseEdge
  refine List.foldlRecOn (motive := (· = p)) placeNumbers _ rfl fun q hq i hi => ?_
  rw [hq]
  simp [Part.noticeTo, Place.wants, h i hi]

theorem Part.gateNow_unsubscribed {p : Part} (h : ∀ i ∈ placeNumbers, (p.place i).station = 0) (g : Gate) :
    ∃ x, p.gateNow g = { p with gates := x } := by
  unfold Part.gateNow
  dsimp only
  split
  · exact ⟨p.gates, rfl⟩
  · exact ⟨_, Part.raiseEdge_unsubscribed (p := { p with gates := p.gates.setEffective g _ }) h _ _ _⟩

/-- Without a subscriber what follows a command builds no Notice. -/
theorem Part.settle_unsubscribed {p : Part} (h : ∀ i ∈ placeNumbers, (p.place i).station = 0) :
    p.settle.agent = p.agent ∧ p.settle.notices = p.notices := by
  obtain ⟨q, hq, -, hagent, hnotices, -⟩ := p.settle_gates
  have hsteady : q.steady = p.steady := by
    rw [← p.settle_steady, hq, Part.gatesNow, Part.gateNow_steady, Part.gateNow_steady]
  have htables : q.tables = p.tables :=
    show q.steady.tables = p.steady.tables by rw [hsteady]
  have hplaces : ∀ i ∈ placeNumbers, (q.place i).station = 0 := by
    simpa only [Part.place, Part.table, htables] using h
  obtain ⟨x, hsignal⟩ := Part.gateNow_unsubscribed hplaces .signal
  obtain ⟨y, hservice⟩ := Part.gateNow_unsubscribed (p := { q with gates := x }) hplaces .service
  rw [hq, Part.gatesNow, hsignal, hservice]
  exact ⟨hagent, hnotices⟩

/-- The Answer to a Poll whose evaluation ends in time counts neither as late nor as overrun (R98, R99). -/
theorem Part.answerWaiting_permitCounts (p : Part) :
    (p.answerWaiting false).chain.lateAnswers = p.chain.lateAnswers ∧
    (p.answerWaiting false).chain.pollOverruns = p.chain.pollOverruns := by
  unfold Part.answerWaiting
  split
  · unfold Part.answerPoll Part.sendAnswer
    split <;> exact ⟨rfl, rfl⟩
  · exact ⟨rfl, rfl⟩

theorem Part.settleEvaluation_permitCounts (p : Part) :
    p.settleEvaluation.chain.lateAnswers = p.chain.lateAnswers ∧ p.settleEvaluation.chain.pollOverruns = p.chain.pollOverruns := by
  unfold Part.settleEvaluation
  dsimp only
  split <;> split
  · exact Part.answerWaiting_permitCounts { p with chain := { p.chain with evalPlan := none, evaluated := true } }
  · exact ⟨rfl, rfl⟩
  · exact p.answerWaiting_permitCounts
  · exact ⟨rfl, rfl⟩

theorem Part.gateNow_chain (p : Part) (g : Gate) : (p.gateNow g).chain = p.chain := by
  obtain ⟨⟨a, x, h⟩, -⟩ := p.gateNow_changes g
  rw [h]

theorem Part.evaluateHold_chain (p : Part) : p.evaluateHold.chain = p.chain := rfl

/-- What follows every command counts no late Answer and no overrun (log 21). -/
theorem Part.settle_permitCounts (p : Part) :
    p.settle.chain.lateAnswers = p.chain.lateAnswers ∧ p.settle.chain.pollOverruns = p.chain.pollOverruns := by
  obtain ⟨o, x, hcloses⟩ := p.restage.recheckCloses_changes
  obtain ⟨hlate, hoverrun⟩ := p.restage.recheckCloses.settleEvaluation_permitCounts
  have hchain : p.settle.chain = p.restage.recheckCloses.settleEvaluation.chain := by
    rw [Part.settle, Part.gatesNow, Part.gateNow_chain, Part.gateNow_chain, Part.evaluateHold_chain]
  rw [hchain, hlate, hoverrun, hcloses]
  exact ⟨rfl, rfl⟩

/-! ## Orders of the claim holder (R180) -/

/-- An order of the claim holder, other than Reset, is carried out and answered by its own rule. -/
theorem Part.takeManage_obeyed {p q : Part} {c : Ctx} {o : ManageOrder} {r : ManageResult} (hclaim : p.claim = some c.source)
    (hreset : o ≠ .reset) (hobey : p.obey c o = (q, r)) :
    p.takeManage c o = q.replyTo c o.code { result := r, data := p.orderData o } := by
  simp [Part.takeManage, Part.asksReset, hclaim, hreset, hobey]

/-! ## The counters cleared (R186) -/

/-- The part with every counter 0. -/
def Part.countersCleared (p : Part) : Part :=
  { p with
    portN := { p.portN with counters := {} }
    portS := { p.portS with counters := {} }
    portW := { p.portW with counters := {} }
    agent := { p.agent with counters := {} }
    stale := 0
    chain := { p.chain with lateAnswers := 0, pollOverruns := 0 }
    postCounts := p.postCounts.map fun _ => {}
    unmatched := 0
    notices := { p.notices with lost := 0 } }

theorem Part.takeClearCounters_eq (p : Part) : p.takeClearCounters = (p.countersCleared, .done) := rfl

/-- A route goes by the states of the ports (R36). -/
theorem Part.resolve_congr {p q : Part} (h : ∀ x, (q.port x).state = (p.port x).state) (arrival : Option PortId) (r : Route) :
    q.resolve arrival r = p.resolve arrival r := by
  have hup : q.isUp = p.isUp := funext fun x => by simp only [Part.isUp, h]
  unfold Part.resolve Part.upPorts
  rw [hup]

theorem Part.countersCleared_resolve (p : Part) (arrival : Option PortId) (r : Route) :
    p.countersCleared.resolve arrival r = p.resolve arrival r :=
  Part.resolve_congr (fun x => by cases x <;> rfl) arrival r

theorem Part.countersCleared_gateDue (p : Part) (g : Gate) : p.countersCleared.gateDue g = p.gateDue g := by
  cases g <;> rfl

/-- The reply to Clear Counters is the same, with the same room and route, before and after the clearing. -/
theorem Part.replied_of_countersCleared {t p : Part} {c : Ctx} {code holder : Nat} {r : ManageResult} {d : List Byte}
    (h : t.replied p.countersCleared c code r holder d) : t.replied p c code r holder d := by
  intro due room ps route
  exact h due room ps ((p.countersCleared_resolve none _).trans route)

theorem Part.orderAnswered_of_countersCleared {t p : Part} {c : Ctx} {code : Nat} {r : ManageResult}
    (h : t.orderAnswered p.countersCleared c code r) : t.orderAnswered p c code r := by
  intro due ps route
  exact h due ps ((p.countersCleared_resolve none _).trans route)

/-- The part that answers Clear Counters, before what follows the command. -/
def Part.clearingAnswered (p : Part) (c : Ctx) : Part := p.countersCleared.replyTo c 19 { result := .done, data := [] }

theorem Part.clearingAnswered_changes (p : Part) (c : Ctx) : ∃ a, p.clearingAnswered c = { p.countersCleared with agent := a } :=
  p.countersCleared.replyTo_changes c 19 _

/-- The reply alone is counted at the Agent Port, and only where it is asked for; no Notice is counted as lost. -/
theorem Part.clearingAnswered_counts (p : Part) (c : Ctx) :
    (p.clearingAnswered c).notices.lost = 0 ∧
    (p.clearingAnswered c).agent.counters.received ≤ 1 ∧ (p.clearingAnswered c).agent.counters.unroutable ≤ 1 ∧
    (c.replyWanted = false → (p.clearingAnswered c).agent.counters = {}) := by
  obtain ⟨hreceived, hunroutable⟩ :=
    Part.replyTo_counters_le (p := p.countersCleared) rfl c 19 { result := .done, data := [] }
  refine ⟨?_, hreceived, hunroutable, fun hwanted => ?_⟩
  · obtain ⟨a, ha⟩ := p.clearingAnswered_changes c
    rw [ha]
    rfl
  · rw [Part.clearingAnswered, Part.replyTo_unwanted _ hwanted (by decide)]
    rfl

/-- The gates stand after the answer to Clear Counters as before it. -/
theorem Part.clearingAnswered_gates {p : Part} (h : ∀ g, p.gateDue g = p.gates.effective g) (c : Ctx) (g : Gate) :
    (p.clearingAnswered c).gateDue g = (p.clearingAnswered c).gates.effective g := by
  obtain ⟨a, ha⟩ := p.clearingAnswered_changes c
  have hdue : (p.clearingAnswered c).gateDue g = p.countersCleared.gateDue g := by
    rw [ha]
    exact Part.gateDue_congr rfl rfl rfl rfl rfl (fun _ => rfl) g
  rw [hdue, p.countersCleared_gateDue, h, ha]
  rfl

/-- What the part is once Clear Counters has been answered and everything settled: the reply, the counters that a frame may increase, and
all the rest. -/
theorem Part.settled_clearing {t p : Part} {c : Ctx} (ht : (p.clearingAnswered c).settle = t) :
    t.replied p c 19 .done 0 [] ∧ t.orderAnswered p c 19 .done ∧ t.chain.lateAnswers = 0 ∧ t.chain.pollOverruns = 0 ∧
    t.agent.counters.arrivalsOnly ∧ t.steady = p.countersCleared.steady := by
  obtain ⟨a, ha⟩ := p.clearingAnswered_changes c
  obtain ⟨hlate, hoverrun⟩ := (p.clearingAnswered c).settle_permitCounts
  have harrivals : (p.clearingAnswered c).agent.counters.arrivalsOnly :=
    Part.replyTo_arrivalsOnly (p := p.countersCleared) rfl c 19 _
  rw [← ht]
  refine ⟨?reply, ?answer, ?late, ?overrun, Part.settle_arrivalsOnly harrivals, ?steady⟩
  case reply =>
    unfold Part.clearingAnswered
    exact Part.replied_of_countersCleared (Part.settle_replyTo_replied _ c 19 (by decide) [])
  case answer =>
    unfold Part.clearingAnswered
    exact Part.orderAnswered_of_countersCleared (Part.settle_replyTo_answered _ c 19 (by decide))
  case late => rw [hlate, ha]; rfl
  case overrun => rw [hoverrun, ha]; rfl
  case steady =>
    unfold Part.clearingAnswered
    exact Part.settle_replyTo_steady _ c 19 _

/-- Where what follows Clear Counters builds no Notice, no counter of a frame is increased but by the reply. -/
theorem Part.settled_clearing_counts {t p : Part} {c : Ctx}
    (h : t.agent = (p.clearingAnswered c).agent ∧ t.notices = (p.clearingAnswered c).notices) :
    t.notices.lost = 0 ∧ t.agent.counters.received ≤ 1 ∧ t.agent.counters.unroutable ≤ 1 ∧
    (c.replyWanted = false → t.agent.counters = {}) := by
  obtain ⟨hagent, hnotices⟩ := h
  rw [hagent, hnotices]
  exact p.clearingAnswered_counts c

/-! ## The two orders -/

/-- A Clear Fault order of the claim holder, carried out. -/
theorem Part.act_clearFault {p : Part} {c : Ctx} (h : p.claim = some c.source) :
    p.act (fun x => x.takeManage c .clearFault) =
      (({ p with sent := [], faults := {} } : Part).replyTo c 18 { result := .done, data := [] }).settle :=
  congrArg Part.settle (Part.takeManage_obeyed (p := { p with sent := [] }) (o := .clearFault) h (by decide) rfl)

/-- A Clear Counters order of the claim holder, carried out. -/
theorem Part.act_clearCounters {p : Part} {c : Ctx} (h : p.claim = some c.source) :
    p.act (fun x => x.takeManage c .clearCounters) = (({ p with sent := [] } : Part).clearingAnswered c).settle :=
  congrArg Part.settle
    (Part.takeManage_obeyed (p := { p with sent := [] }) (o := .clearCounters) h (by decide) (Part.takeClearCounters_eq _))

/-- Settles O29: Clear Fault empties the fault record; Clear Counters sets every counter to 0, and what its own reply increases is at
most 1. -/
theorem faultsAndCountersAreCleared : Obligations.FaultsAndCountersAreCleared := by
  intro c s hclaim
  refine ⟨gives_of_run (fun p => p.takeManage c .clearFault) (exec_clearFault c s) ?fault,
    gives_of_run (fun p => p.takeManage c .clearCounters) (exec_clearCounters c s) ?counters⟩
  case fault =>
    rw [Part.act_clearFault hclaim]
    have hsteady := Part.settle_replyTo_steady { s.part with sent := [], faults := {} } c 18 { result := .done, data := [] }
    have hreply := Part.settle_replyTo_replied { s.part with sent := [], faults := {} } c 18 (r := .done) (by decide) []
    generalize Part.settle _ = t at hsteady hreply ⊢
    exact ⟨hsteady, hreply⟩
  case counters =>
    rw [Part.act_clearCounters hclaim]
    generalize ht : Part.settle _ = t
    obtain ⟨hreply, hanswer, hlate, hoverrun, harrivals, hsteady⟩ := Part.settled_clearing ht
    refine ⟨hreply, hanswer, hlate, hoverrun, harrivals, fun hplaces => ?unsubscribed, fun hquiet => ?quiet, hsteady⟩
    case unsubscribed =>
      obtain ⟨a, ha⟩ := Part.clearingAnswered_changes { s.part with sent := [] } c
      have hsettle := Part.settle_unsubscribed (p := Part.clearingAnswered { s.part with sent := [] } c) (by rw [ha]; exact hplaces)
      rw [ht] at hsettle
      obtain ⟨hlost, -, -, hunasked⟩ := Part.settled_clearing_counts hsettle
      exact ⟨hlost, hunasked⟩
    case quiet =>
      have hgates := Part.clearingAnswered_gates (p := { s.part with sent := [] }) (s.part.quiet_gates hquiet) c
      have hsettle := Part.settle_sends_none _ hgates
      rw [ht] at hsettle
      exact Part.settled_clearing_counts hsettle

end Sys2Proof.Machine
end
